-- ==== Sys2Proof/Word.lean ====
section
/-! DEFINITION. The widths of the core's words (spec/30_encoding.md R48). -/

namespace Sys2Proof

/-- One byte: half a slot of the frame store, and the unit READ returns (20_memory.md R34, R37). -/
abbrev Byte := BitVec 8

/-- A 16-bit frame word: DATA in 7:0, EOI in 8, ATN in 9, bits 15:10 zero (30_encoding.md R49). -/
abbrev Frame := BitVec 16

/-- A 40-bit operation word (30_encoding.md R54, R65). -/
abbrev OpWord := BitVec 40

end Sys2Proof
end

