-- ==== Sys2Proof/Config.lean ====
section
/-! DEFINITION. What an instance of the core fixes (spec/00_scope.md R5), and the free values the spec leaves open. -/

namespace Sys2Proof

/-- `FRAME_BYTE_ORDER` (20_memory.md R34). -/
inductive ByteOrder where
  /-- Data byte first, then the flags byte. -/
  | le
  /-- The two bytes swapped. -/
  | be
deriving DecidableEq, Repr

/-- The parameters of a model instance with their constraints (00_scope.md R5). They are arguments of the model
(R6), held in `State.cfg`, which no operation writes (10_state.md R26); log 2. -/
structure Params where
  /-- `N`: the frame store's capacity in frames, and the pointer modulus. -/
  n : Nat
  /-- `EOI_US`: start-wait time at which the EOI acknowledgment starts. -/
  eoiUs : Nat
  /-- `EOI_PULSE_US`: length of the EOI acknowledgment pulse. -/
  eoiPulseUs : Nat
  /-- `TIMEOUT_US`: ceiling of every wait. -/
  timeoutUs : Nat
  /-- `TIME_W`: width in bits of the microsecond input and the time registers. -/
  timeW : Nat
  /-- `FRAME_BYTE_ORDER`. -/
  byteOrder : ByteOrder
  n_pos : 1 ≤ n
  timeW_ge : 16 ≤ timeW
deriving DecidableEq, Repr

/-- The defaults of 00_scope.md R5. R6: unaudited, so no claim may rest on them being the repository's. -/
def Params.defaults : Params :=
  { n := 1024, eoiUs := 200, eoiPulseUs := 80, timeoutUs := 10000, timeW := 32, byteOrder := .le
    n_pos := by decide, timeW_ge := by decide }

/-- The modulus of the microsecond clock, `2^TIME_W` (00_scope.md R8). -/
def Params.timeMod (c : Params) : Nat := 2 ^ c.timeW

/-- FREE VALUE (DESIGN CHOICE, log 3): what byte `addr` of the frame store holds before any PUSH has written it in
the `epoch`-th life of the store. "any value" in 70_reset_and_hazards.md R120, R121. No body: nothing constrains it. -/
opaque Config.unwrittenByte (epoch addr : Nat) : Byte

/-- FREE VALUE (DESIGN CHOICE, log 6): `write_result(n)`, the OPEN parameter of 00_scope.md R5 and 42_read_port.md
R99. No body: nothing constrains it. -/
opaque Config.writeResult (count : Nat) : Int

end Sys2Proof
end

