-- ==== Sys2Proof/Syntax.lean ====
section
/-! DEFINITION. The operations of the core: one constructor for each row of spec/opcode_table.json. -/

namespace Sys2Proof

/-- The input ports of one RX STEP (10_state.md R13). A level is `true` for 1 and `false` for 0 (00_scope.md R11). -/
structure StepIn where
  /-- 1: the edge dispatcher invokes the receiver. -/
  trig : Bool
  /-- What a read of CLOCK returns. -/
  clk : Bool
  /-- What a read of DATA returns. -/
  data : Bool
  /-- What a read of ATTENTION returns. -/
  atn : Bool
  /-- The microsecond clock modulo `2^TIME_W`. -/
  now : Nat
deriving DecidableEq, Repr

/-- An operation. The port operations and the reserved words carry what their word carries (30_encoding.md R54); an
internal operation carries its operands (R64); a per-state rule of STEP carries the inputs that rule reads once it has
been chosen (40_receiver.md R70). -/
inductive Instr where
  /-- STEP: one RX step (40_receiver.md R70). -/
  | step (inp : StepIn)
  /-- READ of `count` bytes (42_read_port.md R96). -/
  | read (count : Nat)
  /-- WRITE of `count` bytes, the no-op stub (42_read_port.md R99). -/
  | write (count : Nat)
  /-- RESET (70_reset_and_hazards.md R120). -/
  | reset
  /-- RESERVED_4_7: a word with op `0x4`..`0x7`; `low` is op bits 1:0 and `rest` is bits 39:4 (30_encoding.md R59). -/
  | reserved4to7 (low : BitVec 2) (rest : BitVec 36)
  /-- RESERVED_8_F: a word with op `0x8`..`0xF`; `low` is op bits 2:0 and `rest` is bits 39:4 (30_encoding.md R59). -/
  | reserved8toF (low : BitVec 3) (rest : BitVec 36)
  /-- PUSH of the frame word `f` (41_ring_buffer.md R88). -/
  | push (f : Frame)
  /-- AVAILABLE (41_ring_buffer.md R89). -/
  | available
  /-- DRAIN of at most `m` frames (41_ring_buffer.md R91). -/
  | drain (m : Nat)
  /-- STEP.IDLE: IDLE with `trig = 0` (40_receiver.md R71). -/
  | stepIdle
  /-- STEP.IDLE.START: session start (40_receiver.md R72). -/
  | stepIdleStart (now : Nat)
  /-- STEP.WAIT_START.CLK0 (40_receiver.md R73). -/
  | stepWaitStartClk0 (now : Nat)
  /-- STEP.WAIT_START.CLK1 (40_receiver.md R74). -/
  | stepWaitStartClk1 (now : Nat)
  /-- STEP.EOI_ACK.RUN (40_receiver.md R75). -/
  | stepEoiAckRun
  /-- STEP.EOI_ACK.END (40_receiver.md R76). -/
  | stepEoiAckEnd
  /-- STEP.BIT_READY (40_receiver.md R77). -/
  | stepBitReady (clk : Bool) (now : Nat)
  /-- STEP.BIT_SAMPLE (40_receiver.md R78). -/
  | stepBitSample (data : Bool) (now : Nat)
  /-- STEP.BIT_RELEASE.CLK0 (40_receiver.md R79). -/
  | stepBitReleaseClk0 (atn : Bool) (now : Nat)
  /-- STEP.BIT_RELEASE.CLK1 (40_receiver.md R80). -/
  | stepBitReleaseClk1 (atn : Bool) (now : Nat)
  /-- STEP.ILLEGAL_STATE: a STEP with `st` `0b110` or `0b111` (30_encoding.md R61). -/
  | stepIllegalState
deriving DecidableEq, Repr

/-- The operations an agent may issue on the operation port. PUSH, AVAILABLE, DRAIN and the rules of STEP run only
inside another operation (30_encoding.md R55, R64). -/
def Instr.isPortOp : Instr → Bool
  | .step _ | .read _ | .write _ | .reset | .reserved4to7 _ _ | .reserved8toF _ _ => true
  | .push _ | .available | .drain _ => false
  | .stepIdle | .stepIdleStart _ | .stepWaitStartClk0 _ | .stepWaitStartClk1 _ | .stepEoiAckRun | .stepEoiAckEnd
  | .stepBitReady _ _ | .stepBitSample _ _ | .stepBitReleaseClk0 _ _ | .stepBitReleaseClk1 _ _
  | .stepIllegalState => false

end Sys2Proof
end

