-- ==== Sys2Proof/WellFormed.lean ====
section
/-! DEFINITION. Which operands an operation may carry, and which operations an operation word can spell. -/

namespace Sys2Proof

/-- A value of the time input: `TIME_W` bits (10_state.md R13). -/
def Params.timeOk (c : Params) (now : Nat) : Bool := decide (now < c.timeMod)

/-- A frame word: bits 15:10 are zero (30_encoding.md R49, R50). -/
def Frame.ok (f : Frame) : Bool := decide (f.toNat < 2 ^ 10)

/-- The operand ranges of the abstract operation record: a time fits the time input (10_state.md R13), a frame has
bits 15:10 zero (30_encoding.md R50), a count is any natural (R57). -/
def Instr.wf (c : Params) : Instr → Bool
  | .step inp => c.timeOk inp.now
  | .read _ | .write _ | .reset => true
  | .reserved4to7 _ _ | .reserved8toF _ _ => true
  | .push f => Frame.ok f
  | .available | .drain _ => true
  | .stepIdle | .stepEoiAckRun | .stepEoiAckEnd | .stepIllegalState => true
  | .stepIdleStart now | .stepWaitStartClk0 now | .stepWaitStartClk1 now => c.timeOk now
  | .stepBitReady _ now | .stepBitSample _ now => c.timeOk now
  | .stepBitReleaseClk0 _ now | .stepBitReleaseClk1 _ now => c.timeOk now

/-- Which operations the 40-bit operation word can spell: STEP only for `TIME_W ≤ 32` (30_encoding.md R56), a count
below `2^32` (R57), and no internal operation (R64). -/
def Instr.fitsWord (c : Params) : Instr → Bool
  | .step inp => decide (c.timeW ≤ 32) && c.timeOk inp.now
  | .read count | .write count => decide (count < 2 ^ 32)
  | .reset => true
  | .reserved4to7 _ _ | .reserved8toF _ _ => true
  | .push _ | .available | .drain _ => false
  | .stepIdle | .stepIdleStart _ | .stepWaitStartClk0 _ | .stepWaitStartClk1 _ | .stepEoiAckRun | .stepEoiAckEnd
  | .stepBitReady _ _ | .stepBitSample _ _ | .stepBitReleaseClk0 _ _ | .stepBitReleaseClk1 _ _
  | .stepIllegalState => false

end Sys2Proof
end

