-- ==== Sys2Proof/Decode.lean ====
section
/-! DEFINITION. The encodings of spec/30_encoding.md: the operation word (R54 to R60), the receiver state codes (R53),
the internal codes (R64); a decoder and an encoder for each, and the table reading the host asks for. -/

namespace Sys2Proof

/-! ## Receiver state codes (R53) -/

def Code.idle : BitVec 3 := 0b000
def Code.waitStart : BitVec 3 := 0b001
def Code.eoiAck : BitVec 3 := 0b010
def Code.bitReady : BitVec 3 := 0b011
def Code.bitSample : BitVec 3 := 0b100
def Code.bitRelease : BitVec 3 := 0b101

/-- `st` is one of the six codes of R53; `0b110` and `0b111` are unused (R61). -/
def Code.legal (st : BitVec 3) : Bool :=
  st == Code.idle || st == Code.waitStart || st == Code.eoiAck || st == Code.bitReady || st == Code.bitSample
    || st == Code.bitRelease

/-- Which per-state rule a STEP runs: 40_receiver.md R70, with the conditions of R71 to R80. `pulseOver` says
`elapsed(t_pulse) ≥ EOI_PULSE_US`. The codes `0b110` and `0b111` give the illegal-state row (30_encoding.md R61). -/
def decodeRule (st : BitVec 3) (inp : StepIn) (pulseOver : Bool) : Instr :=
  if st = Code.idle then (if inp.trig then .stepIdleStart inp.now else .stepIdle)
  else if st = Code.waitStart then (if inp.clk then .stepWaitStartClk1 inp.now else .stepWaitStartClk0 inp.now)
  else if st = Code.eoiAck then (if pulseOver then .stepEoiAckEnd else .stepEoiAckRun)
  else if st = Code.bitReady then .stepBitReady inp.clk inp.now
  else if st = Code.bitSample then .stepBitSample inp.data inp.now
  else if st = Code.bitRelease then
    (if inp.clk then .stepBitReleaseClk1 inp.atn inp.now else .stepBitReleaseClk0 inp.atn inp.now)
  else .stepIllegalState

/-- The internal operation of a 2-bit internal code with the operands its caller supplies; code 3 is unused (R64). -/
def decodeInternal (code : BitVec 2) (f : Frame) (m : Nat) : Option Instr :=
  match code.toNat with
  | 0 => some (.push f)
  | 1 => some .available
  | 2 => some (.drain m)
  | _ => none

/-! ## The operation word (R54) -/

/-- Why a word spells no operation. -/
inductive DecodeError where
  /-- READ, WRITE or RESET with a must-be-zero bit set (R60). -/
  | mustBeZero
  /-- A STEP with a time bit above `TIME_W` set (R60). -/
  | timeBits
  /-- A STEP word where `TIME_W > 32`: such a model uses the abstract operation record, not this word (R56). -/
  | wideTime
deriving DecidableEq, Repr

/-- Bits 39:8 of a word: `now_us` or `count` (R54). -/
def OpWord.high (w : OpWord) : Nat := (w.extractLsb' 8 32).toNat

/-- The STEP operands `trig = w[4]`, `clk = w[5]`, `data = w[6]`, `atn = w[7]`, `now_us = w[39:8]` (R56). -/
def decodeStep (c : Params) (w : OpWord) : Except DecodeError Instr :=
  if 32 < c.timeW then .error .wideTime
  else if c.timeMod ≤ OpWord.high w then .error .timeBits
  else .ok (.step { trig := w.getLsbD 4, clk := w.getLsbD 5, data := w.getLsbD 6, atn := w.getLsbD 7,
                    now := OpWord.high w })

/-- The operation an operation word spells, by bits 3:0 alone (R54, R65). Total: every word gives an operation or the
reason it is malformed (R60); a reserved word gives its table row, which `exec` refuses (R59). -/
def decode (c : Params) (w : OpWord) : Except DecodeError Instr :=
  match (w.extractLsb' 0 4).toNat with
  | 0 => decodeStep c w
  | 1 => if w.extractLsb' 4 4 = 0 then .ok (.read (OpWord.high w)) else .error .mustBeZero
  | 2 => if w.extractLsb' 4 4 = 0 then .ok (.write (OpWord.high w)) else .error .mustBeZero
  | 3 => if w.extractLsb' 4 36 = 0 then .ok .reset else .error .mustBeZero
  | 4 | 5 | 6 | 7 => .ok (.reserved4to7 (w.extractLsb' 0 2) (w.extractLsb' 4 36))
  | _ => .ok (.reserved8toF (w.extractLsb' 0 3) (w.extractLsb' 4 36))

/-! ## Encoders -/

/-- The operation word of an operation (R54, R69), `none` where no word spells it (R56, R57, R64; `Instr.fitsWord`). -/
def encode (c : Params) (i : Instr) : Option OpWord :=
  if i.fitsWord c then
    match i with
    | .step inp =>
      some (BitVec.ofNat 32 inp.now ++ BitVec.ofBool inp.atn ++ BitVec.ofBool inp.data ++ BitVec.ofBool inp.clk
        ++ BitVec.ofBool inp.trig ++ 0x0#4)
    | .read count => some (BitVec.ofNat 32 count ++ 0x01#8)
    | .write count => some (BitVec.ofNat 32 count ++ 0x02#8)
    | .reset => some 0x0000000003#40
    | .reserved4to7 low rest => some (rest ++ 0b01#2 ++ low)
    | .reserved8toF low rest => some (rest ++ 0b1#1 ++ low)
    | .push _ | .available | .drain _ => none
    | .stepIdle | .stepIdleStart _ | .stepWaitStartClk0 _ | .stepWaitStartClk1 _ | .stepEoiAckRun | .stepEoiAckEnd
    | .stepBitReady _ _ | .stepBitSample _ _ | .stepBitReleaseClk0 _ _ | .stepBitReleaseClk1 _ _
    | .stepIllegalState => none
  else none

/-- The internal code of an internal operation (R64). -/
def encodeInternal : Instr → Option (BitVec 2)
  | .push _ => some 0
  | .available => some 1
  | .drain _ => some 2
  | .step _ | .read _ | .write _ | .reset | .reserved4to7 _ _ | .reserved8toF _ _ => none
  | .stepIdle | .stepIdleStart _ | .stepWaitStartClk0 _ | .stepWaitStartClk1 _ | .stepEoiAckRun | .stepEoiAckEnd
  | .stepBitReady _ _ | .stepBitSample _ _ | .stepBitReleaseClk0 _ _ | .stepBitReleaseClk1 _ _
  | .stepIllegalState => none

/-- The state code that selects a per-state rule (R53). The illegal-state row stands for two codes, `0b110` and
`0b111`, and has no code of its own (R61). -/
def encodeRule : Instr → Option (BitVec 3)
  | .stepIdle | .stepIdleStart _ => some Code.idle
  | .stepWaitStartClk0 _ | .stepWaitStartClk1 _ => some Code.waitStart
  | .stepEoiAckRun | .stepEoiAckEnd => some Code.eoiAck
  | .stepBitReady _ _ => some Code.bitReady
  | .stepBitSample _ _ => some Code.bitSample
  | .stepBitReleaseClk0 _ _ | .stepBitReleaseClk1 _ _ => some Code.bitRelease
  | .stepIllegalState => none
  | .step _ | .read _ | .write _ | .reset | .reserved4to7 _ _ | .reserved8toF _ _ => none
  | .push _ | .available | .drain _ => none

/-! ## The table's words -/

/-- The operation word a table word of `nbits` bits stands for: every bit above `nbits` is 0. -/
def tableWord (nbits w : Nat) : OpWord := BitVec.ofNat 40 (w % 2 ^ nbits)

/-- What the decoder reads from a table word, with the default parameters (00_scope.md R5). A table word is an
operation word: the internal and the state codes are spaces of their own, which no word issues (30_encoding.md R64;
log 15). -/
def decodeTableWord (nbits w : Nat) : Option Instr :=
  match decode Params.defaults (tableWord nbits w) with
  | .ok i => some i
  | .error _ => none

end Sys2Proof
end

