-- ==== Sys2Proof/Machine/State.lean ====
section
/-! DEFINITION. Everything the spec gives the core to hold (spec/10_state.md R19, R24, with its output ports and its
environment's side), the outcomes' reasons, and the state RESET leaves (70_reset_and_hazards.md R121). -/

namespace Sys2Proof.Machine

/-- Event kinds (30_encoding.md R63). -/
inductive EventKind where
  | none
  | frame
  | startTimeout
  | bitTimeout
deriving DecidableEq, Repr

/-- The event record of the event port (30_encoding.md R62). -/
structure Event where
  kind : EventKind
  /-- The bit index of a BIT_TIMEOUT, else 0. -/
  index : BitVec 3
  /-- BIT_TIMEOUT: 0 the bit-ready wait, 1 the bit-release wait; else 0. -/
  phase : BitVec 1
  /-- FRAME: the frame word pushed; else 0. -/
  frame : Frame
deriving DecidableEq, Repr

/-- What the last operation that returns a value gave its caller (log 11). -/
inductive Reply where
  /-- No operation has returned a value yet. -/
  | none
  /-- READ's bytes; their count is READ's length (42_read_port.md R96). -/
  | bytes (bs : List Byte)
  /-- WRITE's `write_result` (42_read_port.md R99). -/
  | written (r : Int)
  /-- AVAILABLE's count (41_ring_buffer.md R89). -/
  | count (c : Nat)
  /-- DRAIN's frames; their number is DRAIN's count (41_ring_buffer.md R91). -/
  | frames (fs : List Frame)
deriving DecidableEq, Repr

/-- An operation the environment has issued, with the true microsecond time at which it did (10_state.md R28). -/
inductive Issue where
  /-- As a 40-bit operation word (30_encoding.md R54). -/
  | word (w : OpWord) (time : Nat)
  /-- As an abstract operation record, for operands the word cannot carry (30_encoding.md R56, R57; log 13). -/
  | record (i : Instr) (time : Nat)
deriving DecidableEq, Repr

/-- The receiver's registers (10_state.md R19). -/
structure RxState where
  st : BitVec 3
  idx : BitVec 3
  acc : BitVec 8
  eoi : Bool
  abort : Bool
  tAnchor : Nat
  tPulse : Nat
  /-- Register and output: 1 drives DATA at level 0 (10_state.md R16). -/
  dataPull : Bool
deriving DecidableEq, Repr

/-- The frame store's bytes: slot `i` is bytes `2i` (bits 7:0) and `2i+1` (bits 15:8) (20_memory.md R30; log 5).
Addresses rise strictly. A byte that is not listed has no stored value: no PUSH has written it in this life of the
store, and it reads as the free value `Config.unwrittenByte` (log 3). So no entry equals what an unlisted address
reads as. -/
abbrev Memory := List Host.Cell

/-- The frame store (10_state.md R24). -/
structure FsState where
  buf : Memory
  /-- Next write slot. -/
  head : Nat
  /-- Next read slot. -/
  tail : Nat
  /-- The MODEL's own: which free contents unwritten slots have; RESET starts a new life (log 4). -/
  epoch : Nat
deriving DecidableEq, Repr

/-- Why the machine stops with a fault. -/
inductive Fault where
  /-- Raised by PUSH, alone or in a completing STEP, when `head` is no slot index: an address 20_memory.md R30 says
  does not exist. Safe: no run from reset reaches it (log 9). -/
  | noSuchSlot (i : Nat)
deriving DecidableEq, Repr

/-- Why the machine refuses an operation. -/
inductive Refusal where
  /-- Raised by `exec` for an operation that has no meaning yet; no arm answers it now. Safe. -/
  | notModelled (mnemonic : String)
  /-- Raised for a reserved word, op `0x4` to `0xF` (30_encoding.md R59: "a model refuses it"). Safe. -/
  | reservedOp (op : BitVec 4)
  /-- Raised by the fetch for a malformed word (30_encoding.md R60: "A model refuses them"). Safe. -/
  | malformedWord (e : DecodeError)
  /-- Raised by a STEP whose `st` is `0b110` or `0b111` (30_encoding.md R61: "refuses the STEP"). Safe. -/
  | illegalState (st : BitVec 3)
  /-- Raised by a STEP whose `now_us` is not the true time modulo `2^TIME_W` (10_state.md R28: "A STEP that breaks
  the obligation is refused by the model"). Safe (log 8). -/
  | clockMismatch
  /-- Raised by a STEP whose true time is earlier than the previous STEP's (93_implementation_defined.md I14). Safe. -/
  | timeBackwards
  /-- Raised by a STEP after a gap of `2^TIME_W − TIMEOUT_US − EOI_PULSE_US` or more (I15). Safe. -/
  | gapTooLong
  /-- Raised by the fetch for a record of an internal operation or of a rule of STEP, which no agent issues
  (30_encoding.md R55, R64). Safe (log 13). -/
  | notIssuable
deriving DecidableEq, Repr

/-- The machine: `CoreState` of 10_state.md section 9 (`rx`, `fs`), the output ports, the instance's parameters and
the environment's side. -/
structure State where
  /-- The instance's parameters (00_scope.md R5); written by no operation (10_state.md R26; log 2). -/
  cfg : Params
  rx : RxState
  fs : FsState
  /-- The event port: the event of the last RX STEP, NONE after RESET (30_encoding.md R62; log 12). -/
  ev : Event
  /-- The result the last value-returning operation gave its caller (log 11). -/
  reply : Reply
  /-- The MODEL's own: the environment's true time at the operation being run (10_state.md R28; log 7). -/
  clock : Nat
  /-- The MODEL's own: the true time of the last RX STEP, none before the first (10_state.md R28; log 7). -/
  lastStep : Option Nat
  /-- The MODEL's own: operations issued and not yet run, oldest first (20_memory.md R40; log 1). -/
  ops : List Issue
deriving DecidableEq, Repr

/-- Event NONE (30_encoding.md R63). -/
abbrev Event.nothing : Event := { kind := .none, index := 0, phase := 0, frame := 0 }

/-- The receiver's registers after RESET (70_reset_and_hazards.md R120, R121). -/
def RxState.reset : RxState :=
  { st := Code.idle, idx := 0, acc := 0x00, eoi := false, abort := false, tAnchor := 0, tPulse := 0
    dataPull := false }

/-- The frame store after RESET in its `epoch`-th life: empty, contents unspecified (70_reset_and_hazards.md R120). -/
def FsState.reset (epoch : Nat) : FsState := { buf := [], head := 0, tail := 0, epoch := epoch }

/-- The machine right after reset (70_reset_and_hazards.md R121, R122), with the default parameters (00_scope.md R5),
nothing issued (log 1) and no STEP yet (log 7). -/
def State.reset : State :=
  { cfg := Params.defaults, rx := RxState.reset, fs := FsState.reset 0, ev := Event.nothing, reply := .none
    clock := 0, lastStep := none, ops := [] }

end Sys2Proof.Machine
end

