-- ==== Sys2Proof/Machine/Operands.lean ====
section
/-! DEFINITION. What an operation reads: modular elapsed time, the bits of a frame and of an event record, the bytes
of a frame on the read port, and the outputs that are functions of the state. -/

namespace Sys2Proof.Machine

/-- `(now − x) mod 2^TIME_W` (00_scope.md R8). -/
def elapsed (c : Params) (now x : Nat) : Nat := (now + c.timeMod - x % c.timeMod) % c.timeMod

/-- Time since the instant in `t_anchor` (00_scope.md R8). -/
abbrev State.sinceAnchor (s : State) (now : Nat) : Nat := elapsed s.cfg now s.rx.tAnchor

/-- Time since the instant in `t_pulse` (00_scope.md R8). -/
abbrev State.sincePulse (s : State) (now : Nat) : Nat := elapsed s.cfg now s.rx.tPulse

/-- The kind codes of 30_encoding.md R63. -/
def EventKind.code : EventKind → BitVec 2
  | .none => 0b00
  | .frame => 0b01
  | .startTimeout => 0b10
  | .bitTimeout => 0b11

/-- The 22-bit event record: kind 1:0, index 4:2, phase 5, frame 21:6 (30_encoding.md R62). -/
def Event.record (e : Event) : BitVec 22 := e.frame ++ e.phase ++ e.index ++ e.kind.code

/-- `ser(f)`: the two bytes of a frame on the read port (20_memory.md R34). -/
def ser (o : ByteOrder) (f : Frame) : List Byte :=
  match o with
  | .le => [f.extractLsb' 0 8, f.extractLsb' 8 8]
  | .be => [f.extractLsb' 8 8, f.extractLsb' 0 8]

/-- The bytes of frames in order: `ser(f_0) ++ ser(f_1) ++ …` (42_read_port.md R96). -/
def serAll (o : ByteOrder) : List Frame → List Byte
  | [] => []
  | f :: fs => ser o f ++ serAll o fs

/-- Output `busy`: 1 exactly when `st ≠ IDLE` (10_state.md R17). -/
def State.busy (s : State) : Bool := s.rx.st != Code.idle

/-- The outputs of an RX STEP: `data_pull`, `busy` and the event (10_state.md section 9, `StepOut`). -/
structure StepOut where
  dataPull : Bool
  busy : Bool
  ev : Event
deriving DecidableEq, Repr

/-- The output ports (10_state.md R16, R17; 30_encoding.md R62). -/
def State.stepOut (s : State) : StepOut := { dataPull := s.rx.dataPull, busy := s.busy, ev := s.ev }

end Sys2Proof.Machine
end

