-- ==== Sys2Proof/Machine/Flags.lean ====
section
/-! DEFINITION. The conditions the rules of STEP test and the flags they compute. -/

namespace Sys2Proof.Machine

/-- A wait has timed out: `elapsed(t_anchor) > TIMEOUT_US`, strictly (90_conflicts.md C2; 40_receiver.md R74, R77,
R80). -/
def State.timedOut (s : State) (now : Nat) : Bool := decide (s.cfg.timeoutUs < s.sinceAnchor now)

/-- The EOI acknowledgment is due: `eoi = 0` and `elapsed(t_anchor) ≥ EOI_US` (40_receiver.md R74). -/
def State.eoiDue (s : State) (now : Nat) : Bool := !s.rx.eoi && decide (s.cfg.eoiUs ≤ s.sinceAnchor now)

/-- The EOI pulse is over: `elapsed(t_pulse) ≥ EOI_PULSE_US` (40_receiver.md R75, R76). -/
def State.pulseOver (s : State) (now : Nat) : Bool := decide (s.cfg.eoiPulseUs ≤ s.sincePulse now)

/-- The ATN flag: the inverted ATTENTION level (10_state.md R22). -/
def atnFlag (atn : Bool) : Bool := !atn

/-- Frame assembly: `zext_16({~in.atn, eoi, acc[7:0]})` (30_encoding.md R51). -/
def frameWord (atn eoi : Bool) (acc : BitVec 8) : Frame :=
  (BitVec.ofBool (atnFlag atn) ++ BitVec.ofBool eoi ++ acc).setWidth 16

/-- The frame a session completes with (40_receiver.md R81). -/
def State.frameOf (s : State) (atn : Bool) : Frame := frameWord atn s.rx.eoi s.rx.acc

/-- The accumulator after DATA was sampled in bit period `i`: `if in.data = 1: acc[i] <- 1` (30_encoding.md R52,
40_receiver.md R78). -/
def sampled (acc : BitVec 8) (i : BitVec 3) (data : Bool) : BitVec 8 :=
  if data then acc ||| (1#8 <<< i.toNat) else acc

/-- What 10_state.md R28 asks of a STEP, and the refusal where it is broken: `now_us` is the true time modulo
`2^TIME_W`; the true time does not go back (93_implementation_defined.md I14); the gap since the last STEP is below
`2^TIME_W − TIMEOUT_US − EOI_PULSE_US` (I15). -/
def State.timeRefusal (s : State) (now : Nat) : Option Refusal :=
  if s.clock % s.cfg.timeMod ≠ now then some .clockMismatch
  else
    match s.lastStep with
    | none => none
    | some t =>
      if s.clock < t then some .timeBackwards
      else if s.cfg.timeMod ≤ s.clock - t + s.cfg.timeoutUs + s.cfg.eoiPulseUs then some .gapTooLong
      else none

end Sys2Proof.Machine
end

