-- ==== Sys2Proof/Machine/Ops.lean ====
section
/-! DEFINITION. The named operations over the frame store and the receiver's registers, each session's end among
them: `complete` and `abortSession`, the receiver's only exception action. -/

namespace Sys2Proof.Machine

/-- What an operation answers. -/
abbrev Answer := Host.Outcome State Fault Refusal

/-! ## Memory (20_memory.md R30) -/

/-- The byte stored at `a`, `none` where no PUSH has written it. -/
def Memory.find? : Memory → Nat → Option Byte
  | [], _ => none
  | (b, v) :: m, a => if b = a then some v else Memory.find? m a

/-- Store a byte, keeping addresses strictly rising. -/
def Memory.insert : Memory → Nat → Byte → Memory
  | [], a, v => [(a, v)]
  | (b, w) :: m, a, v =>
    if a < b then (a, v) :: (b, w) :: m
    else if a = b then (a, v) :: m
    else (b, w) :: Memory.insert m a v

/-- Every address of `m` is above `a`. -/
def Memory.above (a : Nat) : Memory → Bool
  | [] => true
  | (b, _) :: m => decide (a < b) && Memory.above a m

/-- The canonical form: addresses strictly rising. -/
def Memory.wf : Memory → Bool
  | [] => true
  | (a, _) :: m => Memory.above a m && Memory.wf m

/-- Read one byte of the frame store; an unwritten byte is a free value (log 3). -/
def State.readByte (s : State) (a : Nat) : Byte := (s.fs.buf.find? a).getD (Config.unwrittenByte s.fs.epoch a)

/-- `MemRead(i, 2) = FS[i]` (20_memory.md R30). -/
def State.readSlot (s : State) (i : Nat) : Frame := s.readByte (2 * i + 1) ++ s.readByte (2 * i)

/-- The memory after `FS[i] <- f`. -/
def Memory.writeSlot (m : Memory) (i : Nat) (f : Frame) : Memory :=
  (m.insert (2 * i) (f.extractLsb' 0 8)).insert (2 * i + 1) (f.extractLsb' 8 8)

/-! ## The frame store's operations (41_ring_buffer.md) -/

/-- `FS[head] <- f` and `head <- (head + 1) mod N` (41_ring_buffer.md R88). -/
def State.pushed (s : State) (f : Frame) : State :=
  { s with fs := { s.fs with buf := s.fs.buf.writeSlot s.fs.head f, head := (s.fs.head + 1) % s.cfg.n } }

/-- PUSH(f) (41_ring_buffer.md R88): always succeeds where `head` is a slot index; the write to a slot that does not
exist (20_memory.md R30) faults (log 9). -/
def push (f : Frame) (s : State) : Answer :=
  if s.fs.head < s.cfg.n then .next (s.pushed f) else .fault (.noSuchSlot s.fs.head)

/-- AVAILABLE() = `(N + head − tail) mod N` (41_ring_buffer.md R89). -/
def State.available (s : State) : Nat := (s.cfg.n + s.fs.head - s.fs.tail) % s.cfg.n

/-- `c = min(m, AVAILABLE())` of DRAIN(m) (41_ring_buffer.md R91). -/
def State.drainCount (s : State) (m : Nat) : Nat := min m s.available

/-- The frames `FS[(i + j) mod N]` for `j` in `0 .. c−1`. -/
def State.slotsFrom (s : State) (i c : Nat) : List Frame :=
  (List.range c).map fun j => s.readSlot ((i + j) % s.cfg.n)

/-- The frames DRAIN(m) copies (41_ring_buffer.md R91). -/
def State.drainFrames (s : State) (m : Nat) : List Frame := s.slotsFrom s.fs.tail (s.drainCount m)

/-- The state after DRAIN(m): `tail <- (tail + c) mod N` (41_ring_buffer.md R91). -/
def State.drained (s : State) (m : Nat) : State :=
  { s with fs := { s.fs with tail := (s.fs.tail + s.drainCount m) % s.cfg.n } }

/-- `b div 2` of READ(n): the request rounded down to even, clamped to `2 · AVAILABLE()`, in frames
(42_read_port.md R96). -/
def State.readFrames (s : State) (count : Nat) : Nat := min (count - count % 2) (2 * s.available) / 2

/-- Give the caller its result. -/
def State.answer (s : State) (r : Reply) : State := { s with reply := r }

/-! ## The end of an RX step (40_receiver.md R70) -/

/-- An RX step that ends with registers `r` and event `e`. -/
def State.rxDone (s : State) (r : RxState) (e : Event) : State := { s with rx := r, ev := e }

/-- An RX step that writes registers `r` and emits NONE. -/
def State.rxNext (s : State) (r : RxState) : State := s.rxDone r Event.nothing

/-- `abort(kind, i, phase)`: TAKING AN EXCEPTION, the receiver's one exception action (40_receiver.md R82,
60_exceptions.md R104). `r` is what the calling rule leaves in the registers: nothing is saved, `st <- IDLE`, the event
is emitted, the frame store is not touched. There is no return from it (60_exceptions.md R107). -/
def State.abortSession (s : State) (r : RxState) (kind : EventKind) (i : BitVec 3) (phase : BitVec 1) : State :=
  s.rxDone { r with st := Code.idle } { kind := kind, index := i, phase := phase, frame := 0 }

/-- The registers and the event of `complete()`, before its PUSH (40_receiver.md R81). -/
def State.completing (s : State) (atn : Bool) : State :=
  s.rxDone { s.rx with dataPull := true, st := Code.idle }
    { kind := .frame, index := 0, phase := 0, frame := s.frameOf atn }

/-- `complete()`: the frame is assembled from the registers as they were, pushed and logged; DATA is driven low
(40_receiver.md R81). -/
def complete (atn : Bool) (s : State) : Answer := push (s.frameOf atn) (s.completing atn)

end Sys2Proof.Machine
end

