-- ==== Sys2Proof/Machine/FrameStore.lean ====
section
/-! DEFINITION. The frame store's internal operations (spec/41_ring_buffer.md). -/

namespace Sys2Proof.Machine

/-- PUSH(f): no result (41_ring_buffer.md R88). -/
def execPush (f : Frame) (s : State) : Answer := push f s

/-- AVAILABLE(): returns the count of unread frames (41_ring_buffer.md R89). -/
def execAvailable (s : State) : Answer := .next (s.answer (.count s.available))

/-- DRAIN(m): returns the copied frames, advances `tail` by their number (41_ring_buffer.md R91). -/
def execDrain (m : Nat) (s : State) : Answer := .next ((s.drained m).answer (.frames (s.drainFrames m)))

end Sys2Proof.Machine
end

