-- ==== Sys2Proof/Machine/Port.lean ====
section
/-! DEFINITION. The consumer port's READ and WRITE (spec/42_read_port.md), RESET (spec/70_reset_and_hazards.md R120),
and the reserved operation words (spec/30_encoding.md R59). -/

namespace Sys2Proof.Machine

/-- READ(n): DRAIN of the rounded and clamped request, its frames as bytes in `FRAME_BYTE_ORDER` (42_read_port.md
R96). -/
def execRead (count : Nat) (s : State) : Answer :=
  let m := s.readFrames count
  .next ((s.drained m).answer (.bytes (serAll s.cfg.byteOrder (s.drainFrames m))))

/-- WRITE(n): no state is read or written; the result is the OPEN `write_result` (42_read_port.md R99; log 6). -/
def execWrite (count : Nat) (s : State) : Answer := .next (s.answer (.written (Config.writeResult count)))

/-- RESET (70_reset_and_hazards.md R120): receiver, pointers and event port at their reset values; the slots'
contents become unspecified (log 4). The parameters, the last reply and the environment's side are not the core's to
reset. -/
def execReset (s : State) : Answer :=
  .next { s with rx := RxState.reset, fs := FsState.reset (s.fs.epoch + 1), ev := Event.nothing }

/-- A word with op `0x4`..`0x7` spells no operation and is refused (30_encoding.md R59). -/
def execReserved4to7 (low : BitVec 2) (_s : State) : Answer := .refused (.reservedOp (0b01#2 ++ low))

/-- A word with op `0x8`..`0xF` spells no operation and is refused (30_encoding.md R59). -/
def execReserved8toF (low : BitVec 3) (_s : State) : Answer := .refused (.reservedOp (0b1#1 ++ low))

end Sys2Proof.Machine
end

