-- ==== Sys2Proof/Machine/Receiver.lean ====
section
/-! DEFINITION. STEP and its per-state rules (spec/40_receiver.md). A rule is given the inputs it reads once it has
been chosen; `st` and the line that choose it are its encoding (30_encoding.md R53; log 10). -/

namespace Sys2Proof.Machine

/-- IDLE, no trigger: no change (40_receiver.md R71). -/
def execStepIdle (s : State) : Answer := .next (s.rxNext s.rx)

/-- Session start (40_receiver.md R72). `t_pulse` is not written. -/
def execStepIdleStart (now : Nat) (s : State) : Answer :=
  .next (s.rxNext { s.rx with dataPull := false, tAnchor := now, eoi := false, abort := false, idx := 0
                              acc := 0x00, st := Code.waitStart })

/-- WAIT_START, CLOCK at 0: the bit-ready wait of bit 0 begins, even past the timeout (40_receiver.md R73). -/
def execStepWaitStartClk0 (now : Nat) (s : State) : Answer :=
  .next (s.rxNext { s.rx with idx := 0, tAnchor := now, st := Code.bitReady })

/-- WAIT_START, CLOCK at 1: the EOI acknowledgment first, then the timeout, else wait (40_receiver.md R74). -/
def execStepWaitStartClk1 (now : Nat) (s : State) : Answer :=
  if s.eoiDue now then
    .next (s.rxNext { s.rx with eoi := true, abort := s.timedOut now, dataPull := true, tPulse := now
                                st := Code.eoiAck })
  else if s.timedOut now then .next (s.abortSession s.rx .startTimeout 0 0)
  else .next (s.rxNext s.rx)

/-- EOI_ACK, the pulse runs: no change (40_receiver.md R75). -/
def execStepEoiAckRun (s : State) : Answer := .next (s.rxNext s.rx)

/-- EOI_ACK, the pulse ends: back to the start wait, or the abort that was due when it began (40_receiver.md R76). -/
def execStepEoiAckEnd (s : State) : Answer :=
  if s.rx.abort then .next (s.abortSession { s.rx with dataPull := false } .startTimeout 0 0)
  else .next (s.rxNext { s.rx with dataPull := false, st := Code.waitStart })

/-- BIT_READY: CLOCK at 1 wins over the timeout, which aborts at every bit index (40_receiver.md R77). -/
def execStepBitReady (clk : Bool) (now : Nat) (s : State) : Answer :=
  if clk then .next (s.rxNext { s.rx with st := Code.bitSample })
  else if s.timedOut now then .next (s.abortSession s.rx .bitTimeout s.rx.idx 0)
  else .next (s.rxNext s.rx)

/-- BIT_SAMPLE: DATA into `acc[idx]`; the bit-release wait begins (40_receiver.md R78). -/
def execStepBitSample (data : Bool) (now : Nat) (s : State) : Answer :=
  .next (s.rxNext { s.rx with acc := sampled s.rx.acc s.rx.idx data, st := Code.bitRelease, tAnchor := now })

/-- BIT_RELEASE, CLOCK at 0: the next bit, or completion after bit 7 (40_receiver.md R79). -/
def execStepBitReleaseClk0 (atn : Bool) (now : Nat) (s : State) : Answer :=
  if s.rx.idx < 7 then .next (s.rxNext { s.rx with idx := s.rx.idx + 1, tAnchor := now, st := Code.bitReady })
  else complete atn s

/-- BIT_RELEASE, CLOCK at 1: a timeout aborts for bits 0 to 6 and completes the byte for bit 7 (40_receiver.md R80). -/
def execStepBitReleaseClk1 (atn : Bool) (now : Nat) (s : State) : Answer :=
  if s.timedOut now then
    if s.rx.idx < 7 then .next (s.abortSession s.rx .bitTimeout s.rx.idx 1) else complete atn s
  else .next (s.rxNext s.rx)

/-- A STEP with an unused state code is refused (30_encoding.md R61). -/
def execStepIllegalState (s : State) : Answer := .refused (.illegalState s.rx.st)

/-- The one rule a STEP runs, chosen by `st` and the inputs (40_receiver.md R70; `decodeRule` names it). A trigger
outside IDLE is not read (R83). -/
def runRule (inp : StepIn) (s : State) : Answer :=
  if s.rx.st = Code.idle then (if inp.trig then execStepIdleStart inp.now s else execStepIdle s)
  else if s.rx.st = Code.waitStart then
    (if inp.clk then execStepWaitStartClk1 inp.now s else execStepWaitStartClk0 inp.now s)
  else if s.rx.st = Code.eoiAck then (if s.pulseOver inp.now then execStepEoiAckEnd s else execStepEoiAckRun s)
  else if s.rx.st = Code.bitReady then execStepBitReady inp.clk inp.now s
  else if s.rx.st = Code.bitSample then execStepBitSample inp.data inp.now s
  else if s.rx.st = Code.bitRelease then
    (if inp.clk then execStepBitReleaseClk1 inp.atn inp.now s else execStepBitReleaseClk0 inp.atn inp.now s)
  else execStepIllegalState s

/-- Record the true time of this STEP, for the next one's check (10_state.md R28). -/
def State.stepped (s : State) : State := { s with lastStep := some s.clock }

/-- STEP: one evaluation of the receiver (40_receiver.md R70), refused where the environment's time breaks
10_state.md R28. -/
def execStep (inp : StepIn) (s : State) : Answer :=
  match s.timeRefusal inp.now with
  | some r => .refused r
  | none => runRule inp s.stepped

end Sys2Proof.Machine
end

