-- ==== Sys2Proof/Machine/Dispatch.lean ====
section
/-! DEFINITION. One arm per operation, each a direct call of its meaning. -/

namespace Sys2Proof.Machine

def exec (i : Instr) (s : State) : Host.Outcome State Fault Refusal :=
  match i with
  | .step inp => Sys2Proof.Machine.execStep inp s
  | .read count => Sys2Proof.Machine.execRead count s
  | .write count => Sys2Proof.Machine.execWrite count s
  | .reset => Sys2Proof.Machine.execReset s
  | .reserved4to7 low _ => Sys2Proof.Machine.execReserved4to7 low s
  | .reserved8toF low _ => Sys2Proof.Machine.execReserved8toF low s
  | .push f => Sys2Proof.Machine.execPush f s
  | .available => Sys2Proof.Machine.execAvailable s
  | .drain m => Sys2Proof.Machine.execDrain m s
  | .stepIdle => Sys2Proof.Machine.execStepIdle s
  | .stepIdleStart now => Sys2Proof.Machine.execStepIdleStart now s
  | .stepWaitStartClk0 now => Sys2Proof.Machine.execStepWaitStartClk0 now s
  | .stepWaitStartClk1 now => Sys2Proof.Machine.execStepWaitStartClk1 now s
  | .stepEoiAckRun => Sys2Proof.Machine.execStepEoiAckRun s
  | .stepEoiAckEnd => Sys2Proof.Machine.execStepEoiAckEnd s
  | .stepBitReady clk now => Sys2Proof.Machine.execStepBitReady clk now s
  | .stepBitSample data now => Sys2Proof.Machine.execStepBitSample data now s
  | .stepBitReleaseClk0 atn now => Sys2Proof.Machine.execStepBitReleaseClk0 atn now s
  | .stepBitReleaseClk1 atn now => Sys2Proof.Machine.execStepBitReleaseClk1 atn now s
  | .stepIllegalState => Sys2Proof.Machine.execStepIllegalState s

end Sys2Proof.Machine
end

