-- ==== Sys2Proof/Machine/Fetch.lean ====
section
/-! DEFINITION. How the core comes by its next operation: the environment issues them one after another in an order of
its choosing (spec/20_memory.md R40; log 1). There is no instruction fetch (R46). -/

namespace Sys2Proof.Machine

/-- What the fetch finds. -/
inductive Fetched where
  /-- Nothing is issued: no agent acts. -/
  | idle
  /-- The oldest issue is no operation. -/
  | stop (r : Refusal)
  /-- The oldest issue is `i`, to be run in `s`. -/
  | run (i : Instr) (s : State)
deriving DecidableEq, Repr

/-- The state in which an operation issued at true time `time` runs: taken off the list, its time latched. -/
def State.issuedAt (s : State) (time : Nat) (rest : List Issue) : State := { s with ops := rest, clock := time }

/-- Take the oldest issued operation. A malformed word is refused (30_encoding.md R60), and so is a record of an
operation that no agent issues (R55, R64). -/
def fetch (s : State) : Fetched :=
  match s.ops with
  | [] => .idle
  | .word w time :: rest =>
    match decode s.cfg w with
    | .ok i => .run i (s.issuedAt time rest)
    | .error e => .stop (.malformedWord e)
  | .record i time :: rest => if i.isPortOp then .run i (s.issuedAt time rest) else .stop .notIssuable

/-- The earliest true time, not before the last STEP, whose residue modulo `2^TIME_W` is `now` (10_state.md R28). -/
def State.trueTime (s : State) (now : Nat) : Nat :=
  match s.lastStep with
  | none => now
  | some t => t + (now + s.cfg.timeMod - t % s.cfg.timeMod) % s.cfg.timeMod

/-- The issue of a word as the environment would make it now: a STEP's true time fits its `now_us` (R28). -/
def State.issueOf (s : State) (w : OpWord) : Issue :=
  match decode s.cfg w with
  | .ok (.step inp) => .word w (s.trueTime inp.now)
  | _ => .word w s.clock

end Sys2Proof.Machine
end

