-- ==== Sys2Proof/Machine/Step.lean ====
section
/-! DEFINITION. One step of the machine: run the oldest issued operation. -/

namespace Sys2Proof.Machine

/-- One step: the oldest issued operation, whole (20_memory.md R40). Where nothing is issued no agent acts, and
nothing changes (log 1). -/
def step (s : State) : Host.Outcome State Fault Refusal :=
  match fetch s with
  | .idle => .next s
  | .stop r => .refused r
  | .run i t => exec i t

/-- `s` with the operation of a table word issued next, in the place of the oldest issued operation. -/
def State.withFetchWord (s : State) (nbits w : Nat) : State :=
  { s with ops := s.issueOf (tableWord nbits w) :: s.ops.tail }

end Sys2Proof.Machine
end

