-- ==== Sys2Proof/Safety.lean ====
section
/-! DEFINITION. What counts as a safe run, in the terms claims use: the invariant of the machine's registers and its
frame store, the environment's obligation, and what each operation makes of the frame store. -/

namespace Sys2Proof.Machine

/-! ## The environment's obligation -/

/-- 10_state.md R28 for a STEP with input `now`: `now` is the true time modulo `2^TIME_W`, and since the last STEP time
has not gone back and less than `2^TIME_W − TIMEOUT_US − EOI_PULSE_US` has passed. -/
def State.timeMeets (s : State) (now : Nat) : Prop :=
  s.clock % s.cfg.timeMod = now ∧
    ∀ t, s.lastStep = some t → t ≤ s.clock ∧ s.clock - t + s.cfg.timeoutUs + s.cfg.eoiPulseUs < s.cfg.timeMod

/-- What is wrong with an operation word that spells no operation: a must-be-zero bit or a time bit above `TIME_W` set
(30_encoding.md R60), or a STEP word where `TIME_W > 32` (R56; log 13). -/
def MalformedBy (c : Params) (w : OpWord) : DecodeError → Prop
  | .mustBeZero =>
    ((w.extractLsb' 0 4 = 1 ∨ w.extractLsb' 0 4 = 2) ∧ w.extractLsb' 4 4 ≠ 0) ∨
      (w.extractLsb' 0 4 = 3 ∧ w.extractLsb' 4 36 ≠ 0)
  | .timeBits => w.extractLsb' 0 4 = 0 ∧ ∃ j, 8 + c.timeW ≤ j ∧ j < 40 ∧ w.getLsbD j = true
  | .wideTime => w.extractLsb' 0 4 = 0 ∧ 32 < c.timeW

/-- The inputs of the STEP that `step` runs next, if it runs one. -/
def State.nextStepIn (s : State) : Option StepIn :=
  match fetch s with
  | .run (.step inp) _ => some inp
  | _ => none

/-- `step` runs a RESET next. -/
def State.nextIsReset (s : State) : Bool :=
  match fetch s with
  | .run .reset _ => true
  | _ => false

/-! ## The invariant -/

/-- The value sets of the receiver's registers (10_state.md R19, 30_encoding.md R61). -/
def RxState.inRange (c : Params) (r : RxState) : Prop :=
  Code.legal r.st = true ∧ r.tAnchor < c.timeMod ∧ r.tPulse < c.timeMod

/-- The value sets of the frame store: pointers below N (10_state.md R24), a canonical memory of N slots
(20_memory.md R30). -/
def FsState.inRange (c : Params) (f : FsState) : Prop :=
  f.head < c.n ∧ f.tail < c.n ∧ Memory.wf f.buf = true ∧ ∀ cell ∈ f.buf, cell.1 < 2 * c.n

/-- What a session's registers hold in each state (10_state.md R20 to R23, 30_encoding.md R52, 40_receiver.md R84):
bits not yet sampled are 0 in `acc`, the abort flag is set only during a pulse, DATA is driven exactly in EOI_ACK. -/
def RxState.consistent (r : RxState) : Prop :=
  (r.st = Code.waitStart → r.idx = 0 ∧ r.acc = 0 ∧ r.abort = false ∧ r.dataPull = false) ∧
  (r.st = Code.eoiAck → r.idx = 0 ∧ r.acc = 0 ∧ r.eoi = true ∧ r.dataPull = true) ∧
  (r.st = Code.bitReady ∨ r.st = Code.bitSample →
    r.acc.toNat < 2 ^ r.idx.toNat ∧ r.abort = false ∧ r.dataPull = false) ∧
  (r.st = Code.bitRelease → r.acc.toNat < 2 ^ (r.idx.toNat + 1) ∧ r.abort = false ∧ r.dataPull = false)

/-- Every stored frame word has bits 15:10 zero (30_encoding.md R50): the high byte of a slot, at an odd address, is
below 4. -/
def FsState.framesOk (f : FsState) : Prop := ∀ cell ∈ f.buf, cell.1 % 2 = 1 → cell.2.toNat < 4

/-- A PUSH has written slot `i` since the last RESET. -/
def FsState.written (f : FsState) (i : Nat) : Prop :=
  (f.buf.find? (2 * i)).isSome = true ∧ (f.buf.find? (2 * i + 1)).isSome = true

/-- Every unread slot has been written since the last RESET (41_ring_buffer.md R95). -/
def State.unreadWritten (s : State) : Prop :=
  ∀ j, j < s.available → s.fs.written ((s.fs.tail + j) % s.cfg.n)

/-- The machine's invariant. -/
def State.Inv (s : State) : Prop :=
  s.rx.inRange s.cfg ∧ s.fs.inRange s.cfg ∧ s.rx.consistent ∧ s.fs.framesOk ∧ s.unreadWritten

/-! ## The frame store as a queue -/

/-- The unread frames, oldest first (41_ring_buffer.md R89, R91). -/
def State.unread (s : State) : List Frame := s.slotsFrom s.fs.tail s.available

/-- `t`'s frame store is `s`'s after `FS[head] <- f; head <- (head + 1) mod N` (41_ring_buffer.md R88): the slot at the
old `head` reads `f`, every other byte reads as before, `tail` stays. -/
def PushEffect (s t : State) (f : Frame) : Prop :=
  t.readSlot s.fs.head = f ∧
  (∀ a, a ≠ 2 * s.fs.head → a ≠ 2 * s.fs.head + 1 → t.readByte a = s.readByte a) ∧
  t.fs.head = (s.fs.head + 1) % s.cfg.n ∧ t.fs.tail = s.fs.tail ∧ t.fs.epoch = s.fs.epoch

/-- The parameters, the last reply and the environment's side are as they were. -/
def SameOutside (s t : State) : Prop :=
  t.cfg = s.cfg ∧ t.reply = s.reply ∧ t.clock = s.clock ∧ t.lastStep = s.lastStep ∧ t.ops = s.ops

/-- `t` is `s` after `complete()` with ATTENTION at `atn` (40_receiver.md R81): the frame is bits 7:0 `acc`, bit 8
`eoi`, bit 9 `~atn`, bits 15:10 zero (30_encoding.md R49 to R51). -/
def CompleteEffect (s t : State) (atn : Bool) : Prop :=
  ∃ f : Frame,
    (∀ j, j < 8 → f.getLsbD j = s.rx.acc.getLsbD j) ∧ f.getLsbD 8 = s.rx.eoi ∧ f.getLsbD 9 = !atn ∧
    (∀ j, 10 ≤ j → f.getLsbD j = false) ∧
    PushEffect s t f ∧ t.rx = { s.rx with dataPull := true, st := Code.idle } ∧
    t.ev = { kind := .frame, index := 0, phase := 0, frame := f } ∧ SameOutside s t

/-! ## Runs and the histories claims speak of -/

/-- PUSH of each frame in turn. -/
def pushAll : List Frame → State → Answer
  | [], s => .next s
  | f :: fs, s =>
    match exec (.push f) s with
    | .next t => pushAll fs t
    | o => o

/-- A run of the frame store from `s` to `t` with no PUSH at `available = N − 1`: `ps` pushed in order, `ds` returned by
the DRAINs in order. -/
inductive StoreRun (s : State) : List Frame → List Frame → State → Prop
  | nil : StoreRun s [] [] s
  | push {ps ds t u} (f : Frame) : StoreRun s ps ds t → t.available + 1 ≠ s.cfg.n → exec (.push f) t = .next u →
      StoreRun s (ps ++ [f]) ds u
  | drain {ps ds t u} (m : Nat) (frames : List Frame) : StoreRun s ps ds t → exec (.drain m) t = .next u →
      u.reply = .frames frames → StoreRun s ps (ds ++ frames) u

/-- Whether the last session since RESET ended by `complete()`, after one step from `s` to `t`: RESET says no, a STEP
that emits FRAME says yes, a STEP that emits a timeout says no. -/
def completedAfter (s t : State) (before : Bool) : Bool :=
  if s.nextIsReset then false
  else
    match s.nextStepIn, t.ev.kind with
    | some _, .frame => true
    | some _, .startTimeout => false
    | some _, .bitTimeout => false
    | _, _ => before

/-- R84: `data_pull = 1` exactly in EOI_ACK, and in IDLE where the last session since RESET ended by `complete()`. -/
def DataPullExact (s : State) (completed : Bool) : Prop :=
  s.rx.dataPull = true ↔ s.rx.st = Code.eoiAck ∨ (s.rx.st = Code.idle ∧ completed = true)

/-- The DATA levels this session's BIT_SAMPLE steps have seen, after one step from `s`. -/
def levelsAfter (s : State) (ls : List Bool) : List Bool :=
  match s.nextStepIn with
  | some inp => if s.rx.st = Code.idle then [] else if s.rx.st = Code.bitSample then ls ++ [inp.data] else ls
  | none => ls

/-- In a session the accumulator holds the levels seen, least significant bit first, one for each bit period so far. -/
def LevelsSeen (s : State) (ls : List Bool) : Prop :=
  s.rx.st ≠ Code.idle →
    (∀ j, s.rx.acc.getLsbD j = ls.getD j false) ∧
    ls.length =
      (if s.rx.st = Code.bitReady ∨ s.rx.st = Code.bitSample then s.rx.idx.toNat
       else if s.rx.st = Code.bitRelease then s.rx.idx.toNat + 1 else 0)

/-- The true times a session's time registers stand for, and its start. -/
structure Times where
  start : Nat
  anchor : Nat
  pulse : Nat

/-- The true times after one step from `s` to `t` (40_receiver.md R72, R73, R74, R78, R79). -/
def timesAfter (s t : State) (g : Times) : Times :=
  match s.nextStepIn with
  | none => g
  | some _ =>
    if s.rx.st = Code.idle then { g with start := t.clock, anchor := t.clock }
    else if s.rx.st = Code.waitStart ∧ t.rx.st = Code.eoiAck then { g with pulse := t.clock }
    else if s.rx.st = Code.bitSample ∨ (s.rx.st ≠ Code.bitReady ∧ t.rx.st = Code.bitReady) then
      { g with anchor := t.clock }
    else g

/-- Where a session stands in true time when no gap between its STEPs exceeds `G`. -/
def SessionTimes (G : Nat) (s : State) (g : Times) : Prop :=
  let T := s.cfg.timeoutUs
  let P := s.cfg.eoiPulseUs
  s.rx.st ≠ Code.idle →
    ∃ l, s.lastStep = some l ∧ g.start ≤ g.anchor ∧ g.anchor ≤ l ∧ s.rx.tAnchor = g.anchor % s.cfg.timeMod ∧
      (s.rx.st = Code.waitStart →
        g.anchor = g.start ∧ l ≤ g.start + (if s.rx.eoi = true then T + P + G else T)) ∧
      (s.rx.st = Code.eoiAck →
        s.rx.eoi = true ∧ g.anchor = g.start ∧ s.rx.tPulse = g.pulse % s.cfg.timeMod ∧ g.start ≤ g.pulse ∧ g.pulse ≤ l ∧
        l ≤ g.pulse + P ∧ g.pulse ≤ g.start + (if s.rx.abort = true then T + G else T)) ∧
      (s.rx.st = Code.bitReady →
        l ≤ g.anchor + T ∧ g.anchor ≤ g.start + (T + P + 2 * G + s.rx.idx.toNat * (2 * T + 3 * G))) ∧
      (s.rx.st = Code.bitSample →
        l ≤ g.start + (T + P + 2 * G + s.rx.idx.toNat * (2 * T + 3 * G) + T + G)) ∧
      (s.rx.st = Code.bitRelease →
        l ≤ g.anchor + T ∧
        g.anchor ≤ g.start + (T + P + 2 * G + s.rx.idx.toNat * (2 * T + 3 * G) + T + 2 * G))

/-- No more than `G` microseconds passed since the last STEP, where the step from `s` to `t` is a STEP. -/
def GapWithin (G : Nat) (s t : State) : Prop :=
  ∀ l, s.nextStepIn.isSome = true → s.lastStep = some l → t.clock ≤ l + G

/-- The states, with their sessions' true times, that runs from reset reach, whatever is issued. -/
inductive Reached : State → Times → Prop
  | start (ops : List Issue) (g : Times) : Reached { State.reset with ops := ops } g
  | next {s t : State} {g : Times} : Reached s g → step s = .next t → Reached t (timesAfter s t g)

end Sys2Proof.Machine
end

