-- ==== Sys2Proof/Certificates/Slice0/Obligations.lean ====
section
/-! DEFINITION. The statements for the provers. Each docstring names the rules of spec/ it formalises; OBLIGATIONS.json
lists them. A statement about a rule of STEP says what `exec` does with the rule itself and with the STEP that chooses
it; `State.stepped` is the model's note of the STEP's true time (log 7). A clause is the model's, and no rule is cited for
it, where it is about `reply` (log 11), about the event port after an operation other than STEP and RESET (log 12), about
`clock` and `lastStep` (log 7), or about `ops` (log 1). -/

open Sys2Proof Sys2Proof.Machine

/-! ## Encodings (spec/30_encoding.md) -/

/-- Words written out from R54, one for each row: what the decoder reads from them. -/
def Obligations.OperationWordsDecode : Prop :=
  decode Params.defaults 0x000003E8F0#40
    = .ok (.step { trig := true, clk := true, data := true, atn := true, now := 1000 }) ∧
  decode Params.defaults 0x00000FA030#40
    = .ok (.step { trig := true, clk := true, data := false, atn := false, now := 4000 }) ∧
  decode Params.defaults 0x0000000201#40 = .ok (.read 2) ∧
  decode Params.defaults 0x0000000402#40 = .ok (.write 4) ∧
  decode Params.defaults 0x0000000003#40 = .ok .reset ∧
  decode Params.defaults 0x0000000015#40 = .ok (.reserved4to7 0b01 1) ∧
  decode Params.defaults 0x000000002F#40 = .ok (.reserved8toF 0b111 2)

/-- R54, R56, R57: every operation that fits the operation word has a word, and that word decodes to it, with every
operand at every value. -/
def Obligations.DecodeOfEncodeIsTheOperation : Prop :=
  ∀ (c : Params) (i : Instr), i.fitsWord c = true → ∃ w, encode c i = some w ∧ decode c w = .ok i

/-- R54, R59, R60: a word that decodes is the word of what it decodes to, so no two words spell one operation. -/
def Obligations.EncodeOfDecodeIsTheWord : Prop :=
  ∀ (c : Params) (w : OpWord) (i : Instr), decode c w = .ok i → encode c i = some w

/-- R69: the word of a script line, for `TIME_W = 32`, and its examples. R69 is the spec's own inference
("[derived: from rule R54]"). -/
def Obligations.ScriptLineWords : Prop :=
  (∀ (c : Params) (T : Nat) (g k d a : Bool), c.timeW = 32 →
    encode c (.step { trig := g, clk := k, data := d, atn := a, now := T % 2 ^ 32 })
      = some (BitVec.ofNat 40 (((T % 2 ^ 32) <<< 8) ||| (a.toNat <<< 7) ||| (d.toNat <<< 6) ||| (k.toNat <<< 5)
          ||| (g.toNat <<< 4) ||| 0x0))) ∧
  (∀ (c : Params) (n : Nat), n < 2 ^ 32 →
    encode c (.read n) = some (BitVec.ofNat 40 ((n <<< 8) ||| 0x1)) ∧
    encode c (.write n) = some (BitVec.ofNat 40 ((n <<< 8) ||| 0x2))) ∧
  (∀ c : Params, encode c .reset = some 0x3#40) ∧
  encode Params.defaults (.step { trig := true, clk := true, data := true, atn := true, now := 1000 })
    = some 0x000003E8F0#40 ∧
  encode Params.defaults (.read 2) = some 0x0000000201#40

/-- R60: a malformed word at the front of what is issued is refused, whatever the state. -/
def Obligations.MalformedWordsAreRefused : Prop :=
  ∀ (s : State) (w : OpWord) (time : Nat) (rest : List Issue), s.ops = .word w time :: rest →
    (((w.extractLsb' 0 4 = 1 ∨ w.extractLsb' 0 4 = 2 ∨ w.extractLsb' 0 4 = 3) ∧ w.extractLsb' 4 4 ≠ 0) ∨
      (w.extractLsb' 0 4 = 3 ∧ w.extractLsb' 4 36 ≠ 0) ∨
      (w.extractLsb' 0 4 = 0 ∧ ∃ j, 8 + s.cfg.timeW ≤ j ∧ j < 40 ∧ w.getLsbD j = true)) →
    ∃ e, step s = .refused (.malformedWord e)

/-- R59: a reserved word is refused as an instruction, and at the front of what is issued. -/
def Obligations.ReservedWordsAreRefused : Prop :=
  (∀ (low : BitVec 2) (rest : BitVec 36) (s : State),
    exec (.reserved4to7 low rest) s = .refused (.reservedOp (0b01#2 ++ low))) ∧
  (∀ (low : BitVec 3) (rest : BitVec 36) (s : State),
    exec (.reserved8toF low rest) s = .refused (.reservedOp (0b1#1 ++ low))) ∧
  (∀ (s : State) (w : OpWord) (time : Nat) (rest : List Issue), s.ops = .word w time :: rest →
    4 ≤ (w.extractLsb' 0 4).toNat → step s = .refused (.reservedOp (w.extractLsb' 0 4)))

/-- R53, R70: the rule a STEP runs is one whose state code is `st`, for every input. -/
def Obligations.RuleCodesAgree : Prop :=
  ∀ (st : BitVec 3) (inp : StepIn) (p : Bool),
    (Code.legal st = true → encodeRule (decodeRule st inp p) = some st) ∧
    (Code.legal st = false → decodeRule st inp p = .stepIllegalState)

/-- R64: the internal codes 0, 1, 2, code 3 unused, and no internal operation has a word. That one issued as a record is
refused is the model's choice (log 13). -/
def Obligations.InternalCodesAgree : Prop :=
  (∀ (f : Frame) (m : Nat),
    decodeInternal 0 f m = some (.push f) ∧ decodeInternal 1 f m = some .available ∧
    decodeInternal 2 f m = some (.drain m) ∧ decodeInternal 3 f m = none) ∧
  (∀ (code : BitVec 2) (f : Frame) (m : Nat) (i : Instr), decodeInternal code f m = some i →
    encodeInternal i = some code ∧ i.isPortOp = false ∧ ∀ c, encode c i = none) ∧
  (∀ (s : State) (i : Instr) (time : Nat) (rest : List Issue), s.ops = .record i time :: rest →
    i.isPortOp = false → step s = .refused .notIssuable)

/-- R62, R63: where the fields of the 22-bit event record lie, and the codes of the kinds. -/
def Obligations.EventRecordLayout : Prop :=
  (∀ e : Event,
    e.record.extractLsb' 0 2 = e.kind.code ∧ e.record.extractLsb' 2 3 = e.index ∧
    e.record.extractLsb' 5 1 = e.phase ∧ e.record.extractLsb' 6 16 = e.frame) ∧
  EventKind.code .none = 0b00 ∧ EventKind.code .frame = 0b01 ∧ EventKind.code .startTimeout = 0b10 ∧
  EventKind.code .bitTimeout = 0b11

/-- R34 of spec/20_memory.md: the byte pair of a frame under each byte order. -/
def Obligations.ReadPortByteOrder : Prop :=
  ∀ f : Frame,
    ser .le f = [f.extractLsb' 0 8, f.extractLsb' 8 8] ∧ ser .be f = [f.extractLsb' 8 8, f.extractLsb' 0 8]

/-! ## Time (spec/00_scope.md R8, spec/10_state.md R28) -/

/-- R8: `elapsed` is the `TIME_W`-bit difference: the one value below `2^TIME_W` that, added to the recorded instant,
gives the current one modulo `2^TIME_W`. -/
def Obligations.ElapsedIsTheModularDifference : Prop :=
  ∀ (c : Params) (now x : Nat), now < c.timeMod → x < c.timeMod →
    elapsed c now x < c.timeMod ∧ (x + elapsed c now x) % c.timeMod = now ∧
    ∀ e, e < c.timeMod → (x + e) % c.timeMod = now → e = elapsed c now x

/-- R28 with 93_implementation_defined.md I14, I15: the three ways a STEP's time is refused. The refusals' names and
their order are the model's (log 8). -/
def Obligations.BrokenTimeIsRefused : Prop :=
  ∀ (s : State) (inp : StepIn),
    (s.clock % s.cfg.timeMod ≠ inp.now → exec (.step inp) s = .refused .clockMismatch) ∧
    (∀ t, s.clock % s.cfg.timeMod = inp.now → s.lastStep = some t →
      (s.clock < t → exec (.step inp) s = .refused .timeBackwards) ∧
      (t ≤ s.clock → s.cfg.timeMod ≤ s.clock - t + s.cfg.timeoutUs + s.cfg.eoiPulseUs →
        exec (.step inp) s = .refused .gapTooLong))

/-! ## STEP (spec/40_receiver.md) -/

/-- R70: a STEP whose time meets R28 runs exactly the one rule that `st` and its inputs choose. -/
def Obligations.StepRunsTheRuleOfItsState : Prop :=
  ∀ (s : State) (inp : StepIn), s.timeMeets inp.now →
    exec (.step inp) s = exec (decodeRule s.rx.st inp (s.pulseOver inp.now)) s.stepped

/-- R70: a STEP whose time meets R28, in a legal state, answers a next state; it writes the receiver, the event port
and, through PUSH alone, the buffer and `head`; everything else stays, but for the model's note of the time. -/
def Obligations.StepCompletesInEveryLegalState : Prop :=
  ∀ (s : State) (inp : StepIn), s.timeMeets inp.now → Code.legal s.rx.st = true → s.fs.head < s.cfg.n →
    ∃ t, exec (.step inp) s = .next t ∧ Code.legal t.rx.st = true ∧
      t.cfg = s.cfg ∧ t.reply = s.reply ∧ t.clock = s.clock ∧ t.lastStep = some s.clock ∧ t.ops = s.ops ∧
      t.fs.tail = s.fs.tail ∧ t.fs.epoch = s.fs.epoch ∧
      (t.ev.kind ≠ .frame → t.fs = s.fs) ∧
      (t.ev.kind = .frame → PushEffect s t t.ev.frame)

/-- R61: a STEP in a state whose `st` is `0b110` or `0b111` is refused, and no operation leaves such an `st` where the
state had a legal one. R61 is the spec's own inference ("[derived: from 40_receiver.md rules R71 to R82]"). -/
def Obligations.IllegalStateIsRefusedAndUnreachable : Prop :=
  (∀ s : State, exec .stepIllegalState s = .refused (.illegalState s.rx.st)) ∧
  (∀ (s : State) (inp : StepIn), s.rx.st = 0b110 ∨ s.rx.st = 0b111 →
    (∃ r, exec (.step inp) s = .refused r) ∧
    (s.timeMeets inp.now → exec (.step inp) s = .refused (.illegalState s.rx.st))) ∧
  (∀ (i : Instr) (s t : State), Code.legal s.rx.st = true → exec i s = .next t → Code.legal t.rx.st = true)

/-- R71: IDLE without a trigger changes nothing and emits NONE; with a trigger it runs R72. -/
def Obligations.IdleWaitsForATrigger : Prop :=
  ∀ (s : State) (inp : StepIn), s.rx.st = Code.idle → s.timeMeets inp.now →
    exec .stepIdle s = .next { s with ev := Event.nothing } ∧
    exec (.step inp) s =
      if inp.trig = true then exec (.stepIdleStart inp.now) s.stepped
      else .next (State.stepped { s with ev := Event.nothing })

/-- R72: session start, whatever the lines. -/
def Obligations.TriggerInIdleStartsASession : Prop :=
  ∀ (s : State) (inp : StepIn), s.rx.st = Code.idle → inp.trig = true → s.timeMeets inp.now →
    let t : State :=
      { s with
        rx := { st := Code.waitStart, idx := 0, acc := 0x00, eoi := false, abort := false, tAnchor := inp.now
                tPulse := s.rx.tPulse, dataPull := false }
        ev := Event.nothing }
    exec (.stepIdleStart inp.now) s = .next t ∧ exec (.step inp) s = .next t.stepped

/-- R73: WAIT_START with CLOCK at 0 ends the start wait, even past the timeout. -/
def Obligations.ClockLowEndsTheStartWait : Prop :=
  ∀ (s : State) (inp : StepIn), s.rx.st = Code.waitStart → inp.clk = false → s.timeMeets inp.now →
    let t : State :=
      { s with rx := { s.rx with idx := 0, tAnchor := inp.now, st := Code.bitReady }, ev := Event.nothing }
    exec (.stepWaitStartClk0 inp.now) s = .next t ∧ exec (.step inp) s = .next t.stepped

/-- R74: WAIT_START with CLOCK at 1: the EOI acknowledgment, else the timeout, else no change. -/
def Obligations.ClockHighContinuesTheStartWait : Prop :=
  ∀ (s : State) (inp : StepIn), s.rx.st = Code.waitStart → inp.clk = true → s.timeMeets inp.now →
    let e := elapsed s.cfg inp.now s.rx.tAnchor
    let t : State :=
      if s.rx.eoi = false ∧ s.cfg.eoiUs ≤ e then
        { s with
          rx := { s.rx with eoi := true, abort := decide (e > s.cfg.timeoutUs), dataPull := true, tPulse := inp.now
                            st := Code.eoiAck }
          ev := Event.nothing }
      else if e > s.cfg.timeoutUs then
        { s with rx := { s.rx with st := Code.idle }
                 ev := { kind := .startTimeout, index := 0, phase := 0, frame := 0 } }
      else { s with ev := Event.nothing }
    exec (.stepWaitStartClk1 inp.now) s = .next t ∧ exec (.step inp) s = .next t.stepped

/-- R75: the pulse runs: no change, and no line is read. -/
def Obligations.PulseRunsUnchanged : Prop :=
  ∀ (s : State) (inp : StepIn), s.rx.st = Code.eoiAck → s.timeMeets inp.now →
    elapsed s.cfg inp.now s.rx.tPulse < s.cfg.eoiPulseUs →
    exec .stepEoiAckRun s = .next { s with ev := Event.nothing } ∧
    exec (.step inp) s = .next (State.stepped { s with ev := Event.nothing })

/-- R76: the pulse ends: DATA released, then back to WAIT_START, or the abort noted when the pulse began. -/
def Obligations.PulseEndReleasesData : Prop :=
  ∀ (s : State) (inp : StepIn), s.rx.st = Code.eoiAck → s.timeMeets inp.now →
    s.cfg.eoiPulseUs ≤ elapsed s.cfg inp.now s.rx.tPulse →
    let t : State :=
      if s.rx.abort = true then
        { s with rx := { s.rx with dataPull := false, st := Code.idle }
                 ev := { kind := .startTimeout, index := 0, phase := 0, frame := 0 } }
      else { s with rx := { s.rx with dataPull := false, st := Code.waitStart }, ev := Event.nothing }
    exec .stepEoiAckEnd s = .next t ∧ exec (.step inp) s = .next t.stepped

/-- R77: BIT_READY: CLOCK at 1 first, then the timeout at every bit index, else no change. -/
def Obligations.BitReadyWaitsForClockHigh : Prop :=
  ∀ (s : State) (inp : StepIn), s.rx.st = Code.bitReady → s.timeMeets inp.now →
    let t : State :=
      if inp.clk = true then { s with rx := { s.rx with st := Code.bitSample }, ev := Event.nothing }
      else if elapsed s.cfg inp.now s.rx.tAnchor > s.cfg.timeoutUs then
        { s with rx := { s.rx with st := Code.idle }
                 ev := { kind := .bitTimeout, index := s.rx.idx, phase := 0, frame := 0 } }
      else { s with ev := Event.nothing }
    exec (.stepBitReady inp.clk inp.now) s = .next t ∧ exec (.step inp) s = .next t.stepped

/-- R78: BIT_SAMPLE sets `acc[idx]` where DATA is 1 and leaves every other bit; the release wait begins. -/
def Obligations.BitSampleSetsItsBit : Prop :=
  ∀ (s : State) (inp : StepIn), s.rx.st = Code.bitSample → s.timeMeets inp.now →
    ∃ acc : BitVec 8,
      (∀ j, acc.getLsbD j = (s.rx.acc.getLsbD j || (inp.data && decide (j = s.rx.idx.toNat)))) ∧
      (let t : State :=
        { s with rx := { s.rx with acc := acc, st := Code.bitRelease, tAnchor := inp.now }, ev := Event.nothing }
       exec (.stepBitSample inp.data inp.now) s = .next t ∧ exec (.step inp) s = .next t.stepped)

/-- R79: BIT_RELEASE with CLOCK at 0 begins the next bit's ready wait for bits 0 to 6, and completes the byte after
bit 7. -/
def Obligations.ClockLowEndsTheReleaseWait : Prop :=
  ∀ (s : State) (inp : StepIn), s.rx.st = Code.bitRelease → inp.clk = false → s.timeMeets inp.now →
    (s.rx.idx.toNat < 7 → ∃ i : BitVec 3, i.toNat = s.rx.idx.toNat + 1 ∧
      (let t : State :=
        { s with rx := { s.rx with idx := i, tAnchor := inp.now, st := Code.bitReady }, ev := Event.nothing }
       exec (.stepBitReleaseClk0 inp.atn inp.now) s = .next t ∧ exec (.step inp) s = .next t.stepped)) ∧
    (s.rx.idx = 7 → s.fs.head < s.cfg.n →
      ∃ t, exec (.stepBitReleaseClk0 inp.atn inp.now) s = .next t ∧ exec (.step inp) s = .next t.stepped ∧
        CompleteEffect s t inp.atn)

/-- R80: BIT_RELEASE with CLOCK at 1 waits until the timeout, which aborts bits 0 to 6 and completes the byte for
bit 7. -/
def Obligations.ClockHighContinuesTheReleaseWait : Prop :=
  ∀ (s : State) (inp : StepIn), s.rx.st = Code.bitRelease → inp.clk = true → s.timeMeets inp.now →
    (s.rx.idx.toNat < 7 ∨ elapsed s.cfg inp.now s.rx.tAnchor ≤ s.cfg.timeoutUs →
      let t : State :=
        if elapsed s.cfg inp.now s.rx.tAnchor > s.cfg.timeoutUs then
          { s with rx := { s.rx with st := Code.idle }
                   ev := { kind := .bitTimeout, index := s.rx.idx, phase := 1, frame := 0 } }
        else { s with ev := Event.nothing }
      exec (.stepBitReleaseClk1 inp.atn inp.now) s = .next t ∧ exec (.step inp) s = .next t.stepped) ∧
    (s.rx.idx = 7 → s.cfg.timeoutUs < elapsed s.cfg inp.now s.rx.tAnchor → s.fs.head < s.cfg.n →
      ∃ t, exec (.stepBitReleaseClk1 inp.atn inp.now) s = .next t ∧ exec (.step inp) s = .next t.stepped ∧
        CompleteEffect s t inp.atn)

/-- R81: a STEP that emits FRAME came from bit 7's release wait, and did what `complete()` does. -/
def Obligations.CompletionPushesTheAssembledFrame : Prop :=
  ∀ (s t : State) (inp : StepIn), exec (.step inp) s = .next t → t.ev.kind = .frame →
    s.rx.st = Code.bitRelease ∧ s.rx.idx = 7 ∧
      (inp.clk = false ∨ s.cfg.timeoutUs < elapsed s.cfg inp.now s.rx.tAnchor) ∧
      CompleteEffect s.stepped t inp.atn

/-- R83: outside IDLE the trigger is not read. -/
def Obligations.TriggerOutsideIdleIsIgnored : Prop :=
  ∀ (s : State) (inp : StepIn), s.rx.st ≠ Code.idle →
    exec (.step { inp with trig := true }) s = exec (.step { inp with trig := false }) s

/-- R22: ATTENTION matters to a completing STEP only. Any other STEP does the same with either level; a completing one
puts the inverted level in frame bit 9, and nothing else it leaves in the receiver or the frame depends on it. -/
def Obligations.AttentionMattersOnlyAtCompletion : Prop :=
  ∀ (s t : State) (inp : StepIn), exec (.step inp) s = .next t →
    (t.ev.kind ≠ .frame → ∀ atn, exec (.step { inp with atn := atn }) s = .next t) ∧
    (t.ev.kind = .frame → t.ev.frame.getLsbD 9 = !inp.atn ∧
      ∀ atn, ∃ u, exec (.step { inp with atn := atn }) s = .next u ∧ u.rx = t.rx ∧
        ∀ j, j ≠ 9 → u.ev.frame.getLsbD j = t.ev.frame.getLsbD j)

/-- R100 to R102 with R63: the only causes of each event, with its index and phase. -/
def Obligations.EventsComeFromTheirCauses : Prop :=
  ∀ (s t : State) (inp : StepIn), exec (.step inp) s = .next t →
    (t.ev.kind = .none → t.ev = Event.nothing) ∧
    (t.ev.kind = .startTimeout →
      ((s.rx.st = Code.waitStart ∧ inp.clk = true ∧ s.cfg.timeoutUs < s.sinceAnchor inp.now) ∨
        (s.rx.st = Code.eoiAck ∧ s.rx.abort = true ∧ s.cfg.eoiPulseUs ≤ s.sincePulse inp.now)) ∧
      t.ev.index = 0 ∧ t.ev.phase = 0 ∧ t.ev.frame = 0) ∧
    (t.ev.kind = .bitTimeout →
      s.cfg.timeoutUs < s.sinceAnchor inp.now ∧
      ((s.rx.st = Code.bitReady ∧ inp.clk = false ∧ t.ev.phase = 0) ∨
        (s.rx.st = Code.bitRelease ∧ inp.clk = true ∧ s.rx.idx.toNat < 7 ∧ t.ev.phase = 1)) ∧
      t.ev.index = s.rx.idx ∧ t.ev.frame = 0) ∧
    (t.ev.kind = .frame → s.rx.st = Code.bitRelease ∧ s.rx.idx = 7 ∧ t.ev.index = 0 ∧ t.ev.phase = 0)

/-- R111: the order when one STEP meets several conditions. -/
def Obligations.SimultaneousConditionsResolve : Prop :=
  ∀ (s t : State) (inp : StepIn), exec (.step inp) s = .next t →
    (s.rx.st = Code.waitStart → inp.clk = false → t.rx.st = Code.bitReady ∧ t.ev = Event.nothing) ∧
    (s.rx.st = Code.bitReady → inp.clk = true → t.rx.st = Code.bitSample ∧ t.ev = Event.nothing) ∧
    (s.rx.st = Code.bitRelease → inp.clk = false → t.ev.kind ≠ .bitTimeout) ∧
    (s.rx.st = Code.waitStart → inp.clk = true → s.rx.eoi = false → s.cfg.eoiUs ≤ s.sinceAnchor inp.now →
      t.rx.st = Code.eoiAck ∧ t.ev = Event.nothing ∧
      (s.cfg.timeoutUs < s.sinceAnchor inp.now → t.rx.abort = true ∧
        ∀ (v u : State) (inp' : StepIn), v.rx = t.rx → v.cfg = t.cfg → exec (.step inp') v = .next u →
          v.cfg.eoiPulseUs ≤ v.sincePulse inp'.now → u.ev.kind = .startTimeout ∧ u.rx.st = Code.idle)) ∧
    (s.rx.st = Code.bitRelease → s.rx.idx = 7 → s.cfg.timeoutUs < s.sinceAnchor inp.now → t.ev.kind = .frame) ∧
    (s.rx.st ≠ Code.idle → exec (.step { inp with trig := !inp.trig }) s = .next t)

/-- R82: an abort returns the receiver to IDLE and emits its event; it writes no other register (DATA is released by
R76, not here) and nothing of the frame store, the last reply or the parameters. -/
def Obligations.AbortLeavesNoTraceInTheStore : Prop :=
  ∀ (s t : State) (inp : StepIn), exec (.step inp) s = .next t →
    t.ev.kind = .startTimeout ∨ t.ev.kind = .bitTimeout →
    t.rx = { s.rx with st := Code.idle, dataPull := if s.rx.st = Code.eoiAck then false else s.rx.dataPull } ∧
    t.ev = { kind := t.ev.kind, index := if t.ev.kind = .bitTimeout then s.rx.idx else 0
             phase := if s.rx.st = Code.bitRelease then 1 else 0, frame := 0 } ∧
    t.fs = s.fs ∧ t.available = s.available ∧ t.unread = s.unread ∧ t.reply = s.reply ∧ t.cfg = s.cfg

/-- R87: what ends a session is a RESET, which leaves no event, or the session's own STEP, which then emits a FRAME or a
timeout. -/
def Obligations.OnlyItsOwnStepOrResetEndsASession : Prop :=
  ∀ s t : State, step s = .next t → s.rx.st ≠ Code.idle → t.rx.st = Code.idle →
    (s.nextIsReset = true ∧ t.ev = Event.nothing) ∨ (s.nextStepIn.isSome = true ∧ t.ev.kind ≠ .none)

/-! ## The frame store (spec/41_ring_buffer.md) -/

/-- R88: PUSH writes the slot at `head` and advances `head`; every other slot, `tail` and everything else stays. -/
def Obligations.PushWritesOneSlot : Prop :=
  ∀ (s : State) (f : Frame), s.fs.head < s.cfg.n →
    ∃ t, exec (.push f) s = .next t ∧ PushEffect s t f ∧ t.rx = s.rx ∧ t.ev = s.ev ∧ SameOutside s t

/-- The model's fault (log 9), with R30: a PUSH whose `head` is no slot index stops, alone and in either completing STEP
of bit 7: CLOCK at 0 (R79), or the release wait past its timeout (R80). -/
def Obligations.PushOutsideTheStoreFaults : Prop :=
  ∀ s : State, s.cfg.n ≤ s.fs.head →
    (∀ f, exec (.push f) s = .fault (.noSuchSlot s.fs.head)) ∧
    (∀ inp : StepIn, s.timeMeets inp.now → s.rx.st = Code.bitRelease → s.rx.idx = 7 →
      inp.clk = false ∨ s.cfg.timeoutUs < s.sinceAnchor inp.now →
      exec (.step inp) s = .fault (.noSuchSlot s.fs.head))

/-- R89: AVAILABLE returns `(N + head − tail) mod N` and changes nothing else. -/
def Obligations.AvailableCountsUnreadFrames : Prop :=
  ∀ s : State,
    exec .available s = .next { s with reply := .count ((s.cfg.n + s.fs.head - s.fs.tail) % s.cfg.n) }

/-- R90: the range of AVAILABLE. R90 is the spec's own inference ("[derived: from rule R89 and 10_state.md rule
R24]"). -/
def Obligations.AvailableStaysBelowN : Prop :=
  ∀ s : State, s.fs.head < s.cfg.n → s.fs.tail < s.cfg.n →
    s.available < s.cfg.n ∧ (s.available = 0 ↔ s.fs.head = s.fs.tail) ∧ s.available ≠ s.cfg.n

/-- R91: DRAIN copies the oldest frames, `min(m, AVAILABLE())` of them, and advances `tail`; nothing else changes. -/
def Obligations.DrainCopiesTheOldest : Prop :=
  ∀ (s : State) (m : Nat),
    ∃ frames : List Frame, frames.length = min m s.available ∧
      (∀ j (h : j < frames.length), frames[j] = s.readSlot ((s.fs.tail + j) % s.cfg.n)) ∧
      exec (.drain m) s = .next
        { s with fs := { s.fs with tail := (s.fs.tail + min m s.available) % s.cfg.n }, reply := .frames frames }

/-- R92: k PUSHes with no DRAIN: always answered, `available = (a + k) mod N`; a PUSH at `N − 1` empties the store, and
the next overwrites the oldest frame and is the only one readable. For `N = 1` every count is 0, so (2) is stated for
`N ≥ 2`. R92 is the spec's own inference ("[derived: from rules R88 and R89]"). -/
def Obligations.OverwriteBehaviour : Prop :=
  ∀ (s : State) (fs : List Frame), s.fs.head < s.cfg.n → s.fs.tail < s.cfg.n →
    ∃ t, pushAll fs s = .next t ∧ t.fs.tail = s.fs.tail ∧ t.fs.head < s.cfg.n ∧
      t.available = (s.available + fs.length) % s.cfg.n ∧
      ∀ f g : Frame, t.available + 1 = s.cfg.n → 2 ≤ s.cfg.n →
        ∃ u v, exec (.push f) t = .next u ∧ u.available = 0 ∧ u.fs.head = u.fs.tail ∧
          exec (.push g) u = .next v ∧ v.available = 1 ∧ v.readSlot t.fs.tail = g ∧ v.unread = [g]

/-- R93: the DRAINs return the frames in push order, each exactly once: what they returned, followed by what is still
unread, is what was unread at the start followed by what was pushed. R93 is the spec's own inference ("[derived: from
rules R88 and R91]"). -/
def Obligations.FirstInFirstOut : Prop :=
  ∀ (s t : State) (ps ds : List Frame), s.fs.head < s.cfg.n → s.fs.tail < s.cfg.n → StoreRun s ps ds t →
    ds ++ t.unread = s.unread ++ ps

/-- R94: from an empty store, k < N pushes and a DRAIN(k) leave it empty, and return the k frames. R94 is the spec's own
inference ("[derived: from rules R88, R89 and R91]"). -/
def Obligations.OccupancyAccounting : Prop :=
  ∀ (s : State) (fs : List Frame), s.fs.head < s.cfg.n → s.fs.head = s.fs.tail → fs.length < s.cfg.n →
    ∃ t u, pushAll fs s = .next t ∧ exec (.drain fs.length) t = .next u ∧ u.available = 0 ∧ u.reply = .frames fs

/-! ## The consumer port and RESET (spec/42_read_port.md, spec/70_reset_and_hazards.md) -/

/-- R96: READ returns exactly `min(n − n mod 2, 2 · available)` bytes, the oldest frames' byte pairs in order, and
advances `tail` by their number; nothing else changes. That the event port stays is the model's choice (log 12), as is
the field that holds the bytes (log 11). -/
def Obligations.ReadRoundsClampsAndDrains : Prop :=
  ∀ (s : State) (n : Nat),
    ∃ bytes : List Byte, bytes.length = min (n - n % 2) (2 * s.available) ∧
      (∀ j, 2 * j < bytes.length →
        [bytes[2 * j]?, bytes[2 * j + 1]?]
          = (ser s.cfg.byteOrder (s.readSlot ((s.fs.tail + j) % s.cfg.n))).map some) ∧
      exec (.read n) s = .next
        { s with fs := { s.fs with tail := (s.fs.tail + bytes.length / 2) % s.cfg.n }, reply := .bytes bytes }

/-- R97, R39: a READ of an empty store returns zero bytes at once and changes nothing. That the event port stays is the
model's choice (log 12), as is the field that holds the bytes (log 11). -/
def Obligations.ReadOfAnEmptyStoreReturnsNothing : Prop :=
  ∀ (s : State) (n : Nat), s.fs.tail < s.cfg.n → s.available = 0 →
    exec (.read n) s = .next { s with reply := .bytes [] }

/-- R27, R98: the Reader cannot tell two frame stores apart that hold the same unread frames, wherever their pointers
stand and whatever the rest of the machine holds: a READ answers the same and leaves the same unread frames. -/
def Obligations.ReaderSeesOnlyUnreadFrames : Prop :=
  ∀ (s u : State) (n : Nat), s.cfg = u.cfg → s.fs.inRange s.cfg → u.fs.inRange u.cfg → s.unread = u.unread →
    ∃ t v, exec (.read n) s = .next t ∧ exec (.read n) u = .next v ∧ t.reply = v.reply ∧ t.unread = v.unread

/-- R95: what an unwritten slot would read as (the model's `epoch`, logs 3 and 4) never shows in a READ. R95 is the
spec's own inference ("[derived: from rules R88, R91 and 70_reset_and_hazards.md rule R120]"). -/
def Obligations.ResetContentsAreNeverObservable : Prop :=
  ∀ (s : State) (n e : Nat), s.Inv →
    ∃ t u, exec (.read n) s = .next t ∧
      exec (.read n) { s with fs := { s.fs with epoch := e } } = .next u ∧ t.reply = u.reply ∧
      u.fs.tail = t.fs.tail

/-- R99: WRITE changes no state; its result is the OPEN `write_result(n)` (log 6). That the event port stays is the
model's choice (log 12), as is the field that holds the result (log 11). -/
def Obligations.WriteIsANoOp : Prop :=
  ∀ (s : State) (n : Nat), exec (.write n) s = .next { s with reply := .written (Config.writeResult n) }

/-- R120, R121: RESET's values of every register, in every state, with nothing left to read. That RESET leaves the time
of the last STEP (`SameOutside`) is the model's choice (log 7: another reading of R28 starts it anew), and so is that it
leaves the last reply (log 11). -/
def Obligations.ResetLeavesTheResetState : Prop :=
  ∀ s : State, ∃ t, exec .reset s = .next t ∧
    t.rx.st = 0b000 ∧ t.rx.idx = 0 ∧ t.rx.acc = 0x00 ∧ t.rx.eoi = false ∧ t.rx.abort = false ∧ t.rx.tAnchor = 0 ∧
    t.rx.tPulse = 0 ∧ t.rx.dataPull = false ∧ t.busy = false ∧ t.fs.head = 0 ∧ t.fs.tail = 0 ∧
    t.ev.record = 0 ∧ t.available = 0 ∧ t.unread = [] ∧ SameOutside s t

/-- R122, R121: the machine starts in the state RESET leaves. -/
def Obligations.TheMachineStartsReset : Prop :=
  State.reset.rx.st = 0b000 ∧ State.reset.rx.idx = 0 ∧ State.reset.rx.acc = 0 ∧ State.reset.rx.eoi = false ∧
  State.reset.rx.abort = false ∧ State.reset.rx.tAnchor = 0 ∧ State.reset.rx.tPulse = 0 ∧
  State.reset.rx.dataPull = false ∧ State.reset.busy = false ∧ State.reset.fs.head = 0 ∧ State.reset.fs.tail = 0 ∧
  State.reset.ev = Event.nothing

/-- R25: the buffer and `head` change only in a completing STEP or a RESET, `tail` only in a READ or a RESET; no other
port operation touches the frame store. RESET writes both pointers. -/
def Obligations.OnlyItsOwnerWritesTheFrameStore : Prop :=
  ∀ (i : Instr) (s t : State), i.isPortOp = true → exec i s = .next t →
    (i = .reset → t.fs.head = 0 ∧ t.fs.tail = 0) ∧
    (i ≠ .reset →
      t.fs.epoch = s.fs.epoch ∧
      ((t.fs.buf ≠ s.fs.buf ∨ t.fs.head ≠ s.fs.head) → ∃ inp, i = .step inp ∧ t.ev.kind = .frame) ∧
      (t.fs.tail ≠ s.fs.tail → ∃ n, i = .read n))

/-- R26: no operation writes the parameters, and none but the fetch touches what is issued. -/
def Obligations.NoOperationWritesTheParameters : Prop :=
  ∀ (i : Instr) (s t : State), exec i s = .next t → t.cfg = s.cfg ∧ t.ops = s.ops ∧ t.clock = s.clock

/-! ## The machine -/

/-- R40, R46: the oldest issued operation is run, whole: a word's decoding, or a port operation's record, at its true
time (logs 1, 7, 13). -/
def Obligations.StepRunsTheIssuedOperation : Prop :=
  ∀ (s : State) (i : Instr) (time : Nat) (rest : List Issue),
    (∀ w, s.ops = .word w time :: rest → decode s.cfg w = .ok i →
      step s = exec i { s with ops := rest, clock := time }) ∧
    (s.ops = .record i time :: rest → i.isPortOp = true → step s = exec i { s with ops := rest, clock := time })

/-- The model's choice (log 1): where nothing is issued nothing changes. -/
def Obligations.NothingIssuedNothingChanges : Prop := ∀ s : State, s.ops = [] → step s = .next s

/-- The invariant holds at reset. -/
def Obligations.InvariantAtReset : Prop := State.reset.Inv

/-- R19, R24, R30, R50, R52, R61, R95: every step keeps the invariant: legal register values, a canonical memory inside
the store, frame words with bits 15:10 zero, every unread slot written since RESET. -/
def Obligations.StepKeepsTheInvariant : Prop := ∀ s t : State, s.Inv → step s = .next t → t.Inv

/-- Every stop from an invariant state, with its cause. An issue that is no operation is refused: a word malformed by
R60, and, by the model's choice (log 13), a STEP word where `TIME_W > 32` and a record of an operation no agent issues. An
operation answers a next state, or is a reserved word (R59), or is a STEP whose time breaks R28 (the names are the
model's, log 8). There is no fault. -/
def Obligations.OnlyNamedRefusalsStopTheMachine : Prop :=
  ∀ s : State, s.Inv →
    match fetch s with
    | .idle => step s = .next s
    | .stop r => step s = .refused r ∧
      ((∃ w time rest e, s.ops = .word w time :: rest ∧ r = .malformedWord e ∧ MalformedBy s.cfg w e) ∨
        (∃ i time rest, s.ops = .record i time :: rest ∧ r = .notIssuable ∧ i.isPortOp = false))
    | .run i u =>
      (∃ t, step s = .next t) ∨
      (∃ low rest, i = .reserved4to7 low rest ∧ step s = .refused (.reservedOp (0b01#2 ++ low))) ∨
      (∃ low rest, i = .reserved8toF low rest ∧ step s = .refused (.reservedOp (0b1#1 ++ low))) ∨
      ∃ inp r, i = .step inp ∧ ¬ u.timeMeets inp.now ∧ step s = .refused r ∧
        (r = .clockMismatch ∨ r = .timeBackwards ∨ r = .gapTooLong)

/-- R84: the DATA drive invariant holds at reset and every step keeps it. R84 is the spec's own inference ("[derived:
from rules R72, R74, R76, R81, R82 and 70_reset_and_hazards.md rule R120]"). -/
def Obligations.DataDriveInvariant : Prop :=
  DataPullExact State.reset false ∧
  ∀ (s t : State) (completed : Bool), DataPullExact s completed → step s = .next t →
    DataPullExact t (completedAfter s t completed)

/-- R85: bit ordering. Every step keeps `LevelsSeen`, and a STEP that completes a session pushes a frame whose bits 7:0
are the eight levels seen, bit `j` from bit period `j`. R85 is the spec's own inference ("[derived: from rules R72, R78
and R81]"). -/
def Obligations.BitOrdering : Prop :=
  ∀ (s t : State) (ls : List Bool), LevelsSeen s ls → step s = .next t →
    LevelsSeen t (levelsAfter s ls) ∧
    (s.nextStepIn.isSome = true → t.ev.kind = .frame →
      ls.length = 8 ∧ (∀ j (h : j < ls.length), t.ev.frame.getLsbD j = ls[j]) ∧ t.readSlot s.fs.head = t.ev.frame)

/-- R86: a session lasts at most `17·TIMEOUT_US + EOI_PULSE_US + 26·G`. R86 asks for small `G`: here
`TIMEOUT_US + EOI_PULSE_US + 2·G < 2^TIME_W`, since R28 alone does not make every comparison exact (log 14). R86 is
the spec's own inference ("[derived: from rules R73 to R81]"). -/
def Obligations.SessionLengthIsBounded : Prop :=
  ∀ G : Nat,
    (∀ g, SessionTimes G State.reset g) ∧
    ∀ (s t : State) (g : Times), SessionTimes G s g → step s = .next t → GapWithin G s t →
      s.cfg.timeoutUs + s.cfg.eoiPulseUs + 2 * G < s.cfg.timeMod →
      SessionTimes G t (timesAfter s t g) ∧
      (s.nextStepIn.isSome = true → s.rx.st ≠ Code.idle →
        t.clock ≤ g.start + (17 * s.cfg.timeoutUs + s.cfg.eoiPulseUs + 26 * G))

/-- R28's purpose, under the premise that holds: with gaps of at most `G` and
`TIMEOUT_US + EOI_PULSE_US + 2·G < 2^TIME_W`, the elapsed time a rule compares is the true one. -/
def Obligations.ElapsedIsTrueTimeUnderShortGaps : Prop :=
  ∀ (G : Nat) (s t : State) (g : Times) (inp : StepIn), SessionTimes G s g → s.nextStepIn = some inp →
    step s = .next t → GapWithin G s t → s.cfg.timeoutUs + s.cfg.eoiPulseUs + 2 * G < s.cfg.timeMod →
    (s.rx.st = Code.waitStart ∨ s.rx.st = Code.bitReady ∨ s.rx.st = Code.bitRelease →
      s.sinceAnchor inp.now = t.clock - g.anchor) ∧
    (s.rx.st = Code.eoiAck → s.sincePulse inp.now = t.clock - g.pulse)

/-- R28's own claim, that its obligation alone makes `elapsed` the true elapsed time whenever a rule compares it, for
the start wait. It fails: an EOI pulse may be followed by two long gaps (log 14). -/
def Obligations.ElapsedIsTrueTimeWheneverCompared : Prop :=
  ∀ (s t : State) (g : Times) (inp : StepIn), Reached s g → s.nextStepIn = some inp → step s = .next t →
    s.rx.st = Code.waitStart → inp.clk = true → s.sinceAnchor inp.now = t.clock - g.anchor

/-! ## The outputs (spec/10_state.md R16, R17) -/

/-- R17: `busy` is 1 exactly when `st` is not IDLE, in every state. With it the outputs of a STEP (R70): `data_pull` is
the register (R16), and `busy` and the event are those of the state the STEP leaves. -/
def Obligations.BusyIsExactlyOutsideIdle : Prop :=
  ∀ s : State,
    (s.busy = true ↔ s.rx.st ≠ Code.idle) ∧
    s.stepOut.dataPull = s.rx.dataPull ∧ (s.stepOut.busy = true ↔ s.rx.st ≠ Code.idle) ∧ s.stepOut.ev = s.ev
end

