-- ==== Sys2Proof/Laws/Codes.lean ====
section
/-! SUPPORT. The six receiver state codes are distinct (spec/30_encoding.md R53). -/

namespace Sys2Proof

@[simp] theorem Code.idle_ne_waitStart : Code.idle ≠ Code.waitStart := by decide
@[simp] theorem Code.idle_ne_eoiAck : Code.idle ≠ Code.eoiAck := by decide
@[simp] theorem Code.idle_ne_bitReady : Code.idle ≠ Code.bitReady := by decide
@[simp] theorem Code.idle_ne_bitSample : Code.idle ≠ Code.bitSample := by decide
@[simp] theorem Code.idle_ne_bitRelease : Code.idle ≠ Code.bitRelease := by decide
@[simp] theorem Code.waitStart_ne_idle : Code.waitStart ≠ Code.idle := by decide
@[simp] theorem Code.waitStart_ne_eoiAck : Code.waitStart ≠ Code.eoiAck := by decide
@[simp] theorem Code.waitStart_ne_bitReady : Code.waitStart ≠ Code.bitReady := by decide
@[simp] theorem Code.waitStart_ne_bitSample : Code.waitStart ≠ Code.bitSample := by decide
@[simp] theorem Code.waitStart_ne_bitRelease : Code.waitStart ≠ Code.bitRelease := by decide
@[simp] theorem Code.eoiAck_ne_idle : Code.eoiAck ≠ Code.idle := by decide
@[simp] theorem Code.eoiAck_ne_waitStart : Code.eoiAck ≠ Code.waitStart := by decide
@[simp] theorem Code.eoiAck_ne_bitReady : Code.eoiAck ≠ Code.bitReady := by decide
@[simp] theorem Code.eoiAck_ne_bitSample : Code.eoiAck ≠ Code.bitSample := by decide
@[simp] theorem Code.eoiAck_ne_bitRelease : Code.eoiAck ≠ Code.bitRelease := by decide
@[simp] theorem Code.bitReady_ne_idle : Code.bitReady ≠ Code.idle := by decide
@[simp] theorem Code.bitReady_ne_waitStart : Code.bitReady ≠ Code.waitStart := by decide
@[simp] theorem Code.bitReady_ne_eoiAck : Code.bitReady ≠ Code.eoiAck := by decide
@[simp] theorem Code.bitReady_ne_bitSample : Code.bitReady ≠ Code.bitSample := by decide
@[simp] theorem Code.bitReady_ne_bitRelease : Code.bitReady ≠ Code.bitRelease := by decide
@[simp] theorem Code.bitSample_ne_idle : Code.bitSample ≠ Code.idle := by decide
@[simp] theorem Code.bitSample_ne_waitStart : Code.bitSample ≠ Code.waitStart := by decide
@[simp] theorem Code.bitSample_ne_eoiAck : Code.bitSample ≠ Code.eoiAck := by decide
@[simp] theorem Code.bitSample_ne_bitReady : Code.bitSample ≠ Code.bitReady := by decide
@[simp] theorem Code.bitSample_ne_bitRelease : Code.bitSample ≠ Code.bitRelease := by decide
@[simp] theorem Code.bitRelease_ne_idle : Code.bitRelease ≠ Code.idle := by decide
@[simp] theorem Code.bitRelease_ne_waitStart : Code.bitRelease ≠ Code.waitStart := by decide
@[simp] theorem Code.bitRelease_ne_eoiAck : Code.bitRelease ≠ Code.eoiAck := by decide
@[simp] theorem Code.bitRelease_ne_bitReady : Code.bitRelease ≠ Code.bitReady := by decide
@[simp] theorem Code.bitRelease_ne_bitSample : Code.bitRelease ≠ Code.bitSample := by decide
@[simp] theorem Code.legal_idle : Code.legal Code.idle = true := rfl
@[simp] theorem Code.legal_waitStart : Code.legal Code.waitStart = true := rfl
@[simp] theorem Code.legal_eoiAck : Code.legal Code.eoiAck = true := rfl
@[simp] theorem Code.legal_bitReady : Code.legal Code.bitReady = true := rfl
@[simp] theorem Code.legal_bitSample : Code.legal Code.bitSample = true := rfl
@[simp] theorem Code.legal_bitRelease : Code.legal Code.bitRelease = true := rfl

/-- The legal codes are the six codes (spec/30_encoding.md R53, R61). -/
theorem Code.legal_iff {st : BitVec 3} :
    Code.legal st = true ↔ st = Code.idle ∨ st = Code.waitStart ∨ st = Code.eoiAck ∨ st = Code.bitReady ∨
      st = Code.bitSample ∨ st = Code.bitRelease := by
  simp [Code.legal, or_assoc]

/-- What `decodeRule` gives in each of the six states (spec/40_receiver.md R70). -/
theorem decodeRule_idle (inp : StepIn) (p : Bool) :
    decodeRule Code.idle inp p = if inp.trig then .stepIdleStart inp.now else .stepIdle := rfl
theorem decodeRule_waitStart (inp : StepIn) (p : Bool) :
    decodeRule Code.waitStart inp p = if inp.clk then .stepWaitStartClk1 inp.now else .stepWaitStartClk0 inp.now :=
  rfl
theorem decodeRule_eoiAck (inp : StepIn) (p : Bool) :
    decodeRule Code.eoiAck inp p = if p then .stepEoiAckEnd else .stepEoiAckRun := rfl
theorem decodeRule_bitReady (inp : StepIn) (p : Bool) :
    decodeRule Code.bitReady inp p = .stepBitReady inp.clk inp.now := rfl
theorem decodeRule_bitSample (inp : StepIn) (p : Bool) :
    decodeRule Code.bitSample inp p = .stepBitSample inp.data inp.now := rfl
theorem decodeRule_bitRelease (inp : StepIn) (p : Bool) :
    decodeRule Code.bitRelease inp p
      = if inp.clk then .stepBitReleaseClk1 inp.atn inp.now else .stepBitReleaseClk0 inp.atn inp.now := rfl

end Sys2Proof
end

