-- ==== Sys2Proof/Laws/State.lean ====
section
/-! SUPPORT. What each named update of the state does to each field. -/

namespace Sys2Proof.Machine

variable (s : State)


/-! ### `pushed` -/

@[simp] theorem State.pushed_cfg (f : Frame) : (s.pushed f).cfg = s.cfg := rfl
@[simp] theorem State.pushed_rx (f : Frame) : (s.pushed f).rx = s.rx := rfl
@[simp] theorem State.pushed_ev (f : Frame) : (s.pushed f).ev = s.ev := rfl
@[simp] theorem State.pushed_reply (f : Frame) : (s.pushed f).reply = s.reply := rfl
@[simp] theorem State.pushed_clock (f : Frame) : (s.pushed f).clock = s.clock := rfl
@[simp] theorem State.pushed_lastStep (f : Frame) : (s.pushed f).lastStep = s.lastStep := rfl
@[simp] theorem State.pushed_ops (f : Frame) : (s.pushed f).ops = s.ops := rfl
@[simp] theorem State.pushed_buf (f : Frame) : (s.pushed f).fs.buf = s.fs.buf.writeSlot s.fs.head f := rfl
@[simp] theorem State.pushed_head (f : Frame) : (s.pushed f).fs.head = (s.fs.head + 1) % s.cfg.n := rfl
@[simp] theorem State.pushed_tail (f : Frame) : (s.pushed f).fs.tail = s.fs.tail := rfl
@[simp] theorem State.pushed_epoch (f : Frame) : (s.pushed f).fs.epoch = s.fs.epoch := rfl

/-! ### `drained` -/

@[simp] theorem State.drained_cfg (m : Nat) : (s.drained m).cfg = s.cfg := rfl
@[simp] theorem State.drained_rx (m : Nat) : (s.drained m).rx = s.rx := rfl
@[simp] theorem State.drained_ev (m : Nat) : (s.drained m).ev = s.ev := rfl
@[simp] theorem State.drained_reply (m : Nat) : (s.drained m).reply = s.reply := rfl
@[simp] theorem State.drained_clock (m : Nat) : (s.drained m).clock = s.clock := rfl
@[simp] theorem State.drained_lastStep (m : Nat) : (s.drained m).lastStep = s.lastStep := rfl
@[simp] theorem State.drained_ops (m : Nat) : (s.drained m).ops = s.ops := rfl
@[simp] theorem State.drained_buf (m : Nat) : (s.drained m).fs.buf = s.fs.buf := rfl
@[simp] theorem State.drained_head (m : Nat) : (s.drained m).fs.head = s.fs.head := rfl
@[simp] theorem State.drained_tail (m : Nat) : (s.drained m).fs.tail = (s.fs.tail + s.drainCount m) % s.cfg.n := rfl
@[simp] theorem State.drained_epoch (m : Nat) : (s.drained m).fs.epoch = s.fs.epoch := rfl

/-! ### `answer` -/

@[simp] theorem State.answer_cfg (r : Reply) : (s.answer r).cfg = s.cfg := rfl
@[simp] theorem State.answer_rx (r : Reply) : (s.answer r).rx = s.rx := rfl
@[simp] theorem State.answer_fs (r : Reply) : (s.answer r).fs = s.fs := rfl
@[simp] theorem State.answer_ev (r : Reply) : (s.answer r).ev = s.ev := rfl
@[simp] theorem State.answer_reply (r : Reply) : (s.answer r).reply = r := rfl
@[simp] theorem State.answer_clock (r : Reply) : (s.answer r).clock = s.clock := rfl
@[simp] theorem State.answer_lastStep (r : Reply) : (s.answer r).lastStep = s.lastStep := rfl
@[simp] theorem State.answer_ops (r : Reply) : (s.answer r).ops = s.ops := rfl

/-! ### `rxDone` -/

@[simp] theorem State.rxDone_cfg (r : RxState) (e : Event) : (s.rxDone r e).cfg = s.cfg := rfl
@[simp] theorem State.rxDone_rx (r : RxState) (e : Event) : (s.rxDone r e).rx = r := rfl
@[simp] theorem State.rxDone_fs (r : RxState) (e : Event) : (s.rxDone r e).fs = s.fs := rfl
@[simp] theorem State.rxDone_ev (r : RxState) (e : Event) : (s.rxDone r e).ev = e := rfl
@[simp] theorem State.rxDone_reply (r : RxState) (e : Event) : (s.rxDone r e).reply = s.reply := rfl
@[simp] theorem State.rxDone_clock (r : RxState) (e : Event) : (s.rxDone r e).clock = s.clock := rfl
@[simp] theorem State.rxDone_lastStep (r : RxState) (e : Event) : (s.rxDone r e).lastStep = s.lastStep := rfl
@[simp] theorem State.rxDone_ops (r : RxState) (e : Event) : (s.rxDone r e).ops = s.ops := rfl

/-! ### `rxNext` -/

@[simp] theorem State.rxNext_cfg (r : RxState) : (s.rxNext r).cfg = s.cfg := rfl
@[simp] theorem State.rxNext_rx (r : RxState) : (s.rxNext r).rx = r := rfl
@[simp] theorem State.rxNext_fs (r : RxState) : (s.rxNext r).fs = s.fs := rfl
@[simp] theorem State.rxNext_ev (r : RxState) : (s.rxNext r).ev = Event.nothing := rfl
@[simp] theorem State.rxNext_reply (r : RxState) : (s.rxNext r).reply = s.reply := rfl
@[simp] theorem State.rxNext_clock (r : RxState) : (s.rxNext r).clock = s.clock := rfl
@[simp] theorem State.rxNext_lastStep (r : RxState) : (s.rxNext r).lastStep = s.lastStep := rfl
@[simp] theorem State.rxNext_ops (r : RxState) : (s.rxNext r).ops = s.ops := rfl

/-! ### `abortSession` -/

@[simp] theorem State.abortSession_cfg (r : RxState) (k : EventKind) (i : BitVec 3) (p : BitVec 1) : (s.abortSession r k i p).cfg = s.cfg := rfl
@[simp] theorem State.abortSession_rx (r : RxState) (k : EventKind) (i : BitVec 3) (p : BitVec 1) : (s.abortSession r k i p).rx = { r with st := Code.idle } := rfl
@[simp] theorem State.abortSession_fs (r : RxState) (k : EventKind) (i : BitVec 3) (p : BitVec 1) : (s.abortSession r k i p).fs = s.fs := rfl
@[simp] theorem State.abortSession_ev (r : RxState) (k : EventKind) (i : BitVec 3) (p : BitVec 1) : (s.abortSession r k i p).ev = { kind := k, index := i, phase := p, frame := 0 } := rfl
@[simp] theorem State.abortSession_reply (r : RxState) (k : EventKind) (i : BitVec 3) (p : BitVec 1) : (s.abortSession r k i p).reply = s.reply := rfl
@[simp] theorem State.abortSession_clock (r : RxState) (k : EventKind) (i : BitVec 3) (p : BitVec 1) : (s.abortSession r k i p).clock = s.clock := rfl
@[simp] theorem State.abortSession_lastStep (r : RxState) (k : EventKind) (i : BitVec 3) (p : BitVec 1) : (s.abortSession r k i p).lastStep = s.lastStep := rfl
@[simp] theorem State.abortSession_ops (r : RxState) (k : EventKind) (i : BitVec 3) (p : BitVec 1) : (s.abortSession r k i p).ops = s.ops := rfl

/-! ### `completing` -/

@[simp] theorem State.completing_cfg (a : Bool) : (s.completing a).cfg = s.cfg := rfl
@[simp] theorem State.completing_rx (a : Bool) : (s.completing a).rx = { s.rx with dataPull := true, st := Code.idle } := rfl
@[simp] theorem State.completing_fs (a : Bool) : (s.completing a).fs = s.fs := rfl
@[simp] theorem State.completing_ev (a : Bool) : (s.completing a).ev = { kind := .frame, index := 0, phase := 0, frame := s.frameOf a } := rfl
@[simp] theorem State.completing_reply (a : Bool) : (s.completing a).reply = s.reply := rfl
@[simp] theorem State.completing_clock (a : Bool) : (s.completing a).clock = s.clock := rfl
@[simp] theorem State.completing_lastStep (a : Bool) : (s.completing a).lastStep = s.lastStep := rfl
@[simp] theorem State.completing_ops (a : Bool) : (s.completing a).ops = s.ops := rfl

/-! ### `stepped` -/

@[simp] theorem State.stepped_cfg : (s.stepped).cfg = s.cfg := rfl
@[simp] theorem State.stepped_rx : (s.stepped).rx = s.rx := rfl
@[simp] theorem State.stepped_fs : (s.stepped).fs = s.fs := rfl
@[simp] theorem State.stepped_ev : (s.stepped).ev = s.ev := rfl
@[simp] theorem State.stepped_reply : (s.stepped).reply = s.reply := rfl
@[simp] theorem State.stepped_clock : (s.stepped).clock = s.clock := rfl
@[simp] theorem State.stepped_lastStep : (s.stepped).lastStep = some s.clock := rfl
@[simp] theorem State.stepped_ops : (s.stepped).ops = s.ops := rfl

/-! ### `issuedAt` -/

@[simp] theorem State.issuedAt_cfg (time : Nat) (rest : List Issue) : (s.issuedAt time rest).cfg = s.cfg := rfl
@[simp] theorem State.issuedAt_rx (time : Nat) (rest : List Issue) : (s.issuedAt time rest).rx = s.rx := rfl
@[simp] theorem State.issuedAt_fs (time : Nat) (rest : List Issue) : (s.issuedAt time rest).fs = s.fs := rfl
@[simp] theorem State.issuedAt_ev (time : Nat) (rest : List Issue) : (s.issuedAt time rest).ev = s.ev := rfl
@[simp] theorem State.issuedAt_reply (time : Nat) (rest : List Issue) : (s.issuedAt time rest).reply = s.reply := rfl
@[simp] theorem State.issuedAt_clock (time : Nat) (rest : List Issue) : (s.issuedAt time rest).clock = time := rfl
@[simp] theorem State.issuedAt_lastStep (time : Nat) (rest : List Issue) : (s.issuedAt time rest).lastStep = s.lastStep := rfl
@[simp] theorem State.issuedAt_ops (time : Nat) (rest : List Issue) : (s.issuedAt time rest).ops = rest := rfl

/-! ### Reads through an update -/

@[simp] theorem State.answer_readByte (r : Reply) (a' : Nat) : (s.answer r).readByte a' = s.readByte a' := rfl
@[simp] theorem State.answer_readSlot (r : Reply) (k' : Nat) : (s.answer r).readSlot k' = s.readSlot k' := rfl
@[simp] theorem State.answer_available (r : Reply) : (s.answer r).available = s.available := rfl
@[simp] theorem State.answer_unread (r : Reply) : (s.answer r).unread = s.unread := rfl
@[simp] theorem State.rxDone_readByte (r : RxState) (e : Event) (a' : Nat) : (s.rxDone r e).readByte a' = s.readByte a' := rfl
@[simp] theorem State.rxDone_readSlot (r : RxState) (e : Event) (k' : Nat) : (s.rxDone r e).readSlot k' = s.readSlot k' := rfl
@[simp] theorem State.rxDone_available (r : RxState) (e : Event) : (s.rxDone r e).available = s.available := rfl
@[simp] theorem State.rxDone_unread (r : RxState) (e : Event) : (s.rxDone r e).unread = s.unread := rfl
@[simp] theorem State.rxNext_readByte (r : RxState) (a' : Nat) : (s.rxNext r).readByte a' = s.readByte a' := rfl
@[simp] theorem State.rxNext_readSlot (r : RxState) (k' : Nat) : (s.rxNext r).readSlot k' = s.readSlot k' := rfl
@[simp] theorem State.rxNext_available (r : RxState) : (s.rxNext r).available = s.available := rfl
@[simp] theorem State.rxNext_unread (r : RxState) : (s.rxNext r).unread = s.unread := rfl
@[simp] theorem State.abortSession_readByte (r : RxState) (k : EventKind) (i : BitVec 3) (p : BitVec 1) (a' : Nat) : (s.abortSession r k i p).readByte a' = s.readByte a' := rfl
@[simp] theorem State.abortSession_readSlot (r : RxState) (k : EventKind) (i : BitVec 3) (p : BitVec 1) (k' : Nat) : (s.abortSession r k i p).readSlot k' = s.readSlot k' := rfl
@[simp] theorem State.abortSession_available (r : RxState) (k : EventKind) (i : BitVec 3) (p : BitVec 1) : (s.abortSession r k i p).available = s.available := rfl
@[simp] theorem State.abortSession_unread (r : RxState) (k : EventKind) (i : BitVec 3) (p : BitVec 1) : (s.abortSession r k i p).unread = s.unread := rfl
@[simp] theorem State.completing_readByte (a : Bool) (a' : Nat) : (s.completing a).readByte a' = s.readByte a' := rfl
@[simp] theorem State.completing_readSlot (a : Bool) (k' : Nat) : (s.completing a).readSlot k' = s.readSlot k' := rfl
@[simp] theorem State.completing_available (a : Bool) : (s.completing a).available = s.available := rfl
@[simp] theorem State.completing_unread (a : Bool) : (s.completing a).unread = s.unread := rfl
@[simp] theorem State.stepped_readByte (a' : Nat) : (s.stepped).readByte a' = s.readByte a' := rfl
@[simp] theorem State.stepped_readSlot (k' : Nat) : (s.stepped).readSlot k' = s.readSlot k' := rfl
@[simp] theorem State.stepped_available : (s.stepped).available = s.available := rfl
@[simp] theorem State.stepped_unread : (s.stepped).unread = s.unread := rfl
@[simp] theorem State.issuedAt_readByte (time : Nat) (rest : List Issue) (a' : Nat) : (s.issuedAt time rest).readByte a' = s.readByte a' := rfl
@[simp] theorem State.issuedAt_readSlot (time : Nat) (rest : List Issue) (k' : Nat) : (s.issuedAt time rest).readSlot k' = s.readSlot k' := rfl
@[simp] theorem State.issuedAt_available (time : Nat) (rest : List Issue) : (s.issuedAt time rest).available = s.available := rfl
@[simp] theorem State.issuedAt_unread (time : Nat) (rest : List Issue) : (s.issuedAt time rest).unread = s.unread := rfl
@[simp] theorem State.drained_readByte (m a : Nat) : (s.drained m).readByte a = s.readByte a := rfl
@[simp] theorem State.drained_readSlot (m i : Nat) : (s.drained m).readSlot i = s.readSlot i := rfl
@[simp] theorem State.stepped_frameOf (a : Bool) : s.stepped.frameOf a = s.frameOf a := rfl
@[simp] theorem State.stepped_sinceAnchor (now : Nat) : s.stepped.sinceAnchor now = s.sinceAnchor now := rfl
@[simp] theorem State.stepped_sincePulse (now : Nat) : s.stepped.sincePulse now = s.sincePulse now := rfl
@[simp] theorem State.stepped_timedOut (now : Nat) : s.stepped.timedOut now = s.timedOut now := rfl
@[simp] theorem State.stepped_eoiDue (now : Nat) : s.stepped.eoiDue now = s.eoiDue now := rfl
@[simp] theorem State.stepped_pulseOver (now : Nat) : s.stepped.pulseOver now = s.pulseOver now := rfl

end Sys2Proof.Machine
end

