-- ==== Sys2Proof/Laws/Memory.lean ====
section
/-! SUPPORT. The laws of the frame store's memory: reads after writes, and the canonical form, which every memory
operation keeps. -/

namespace Sys2Proof.Machine

@[simp] theorem Memory.find?_nil (a : Nat) : Memory.find? [] a = none := rfl

@[simp] theorem Memory.find?_insert_same (m : Memory) (a : Nat) (v : Byte) : (m.insert a v).find? a = some v := by
  induction m with
  | nil => simp [Memory.insert, Memory.find?]
  | cons c m ih =>
    obtain ⟨b, w⟩ := c
    rcases Nat.lt_trichotomy a b with h | h | h
    · simp [Memory.insert, Memory.find?, h]
    · simp [Memory.insert, Memory.find?, h]
    · simp [Memory.insert, Memory.find?, Nat.not_lt.2 (Nat.le_of_lt h), Nat.ne_of_gt h, Nat.ne_of_lt h, ih]

theorem Memory.find?_insert_other (m : Memory) {a c : Nat} (v : Byte) (h : c ≠ a) :
    (m.insert a v).find? c = m.find? c := by
  induction m with
  | nil => simp [Memory.insert, Memory.find?, h.symm]
  | cons d m ih =>
    obtain ⟨b, w⟩ := d
    simp only [Memory.insert]
    split
    · simp [Memory.find?, h.symm]
    · split
      · next hb => subst hb; simp [Memory.find?, h.symm]
      · simp [Memory.find?, ih]

/-- Inserting writes one address and leaves every other. -/
theorem Memory.find?_insert (m : Memory) (a c : Nat) (v : Byte) :
    (m.insert a v).find? c = if c = a then some v else m.find? c := by
  split
  · next h => rw [h, Memory.find?_insert_same]
  · next h => exact Memory.find?_insert_other m v h

theorem Memory.above_mono {a b : Nat} (h : a ≤ b) : ∀ {m : Memory}, Memory.above b m = true → Memory.above a m = true
  | [], _ => rfl
  | (c, v) :: m, hm => by
    simp only [Memory.above, Bool.and_eq_true, decide_eq_true_eq] at hm ⊢
    exact ⟨by omega, Memory.above_mono h hm.2⟩

theorem Memory.above_insert {a b : Nat} {v : Byte} (h : a < b) :
    ∀ {m : Memory}, Memory.above a m = true → Memory.above a (m.insert b v) = true
  | [], _ => by simp [Memory.insert, Memory.above, h]
  | (c, w) :: m, hm => by
    simp only [Memory.above, Bool.and_eq_true, decide_eq_true_eq] at hm
    simp only [Memory.insert]
    split
    · simp [Memory.above, h, hm.1, hm.2]
    · split
      · simp [Memory.above, h, hm.2]
      · simp [Memory.above, hm.1, Memory.above_insert h hm.2]

/-- Storing a byte keeps the canonical form. -/
theorem Memory.wf_insert {m : Memory} (a : Nat) (v : Byte) (h : Memory.wf m = true) :
    Memory.wf (m.insert a v) = true := by
  induction m with
  | nil => rfl
  | cons c m ih =>
    obtain ⟨b, w⟩ := c
    simp only [Memory.wf, Bool.and_eq_true] at h
    simp only [Memory.insert]
    split
    · next hab =>
      simp [Memory.wf, Memory.above, hab, h.1, h.2, Memory.above_mono (Nat.le_of_lt hab) h.1]
    · split
      · next _ hab => subst hab; simp [Memory.wf, h.1, h.2]
      · next h1 h2 =>
        have hba : b < a := by omega
        simp [Memory.wf, ih h.2, Memory.above_insert hba h.1]

/-- A slot write, the only write there is, keeps the canonical form. -/
theorem Memory.wf_writeSlot {m : Memory} (i : Nat) (f : Frame) (h : Memory.wf m = true) :
    Memory.wf (m.writeSlot i f) = true :=
  Memory.wf_insert _ _ (Memory.wf_insert _ _ h)

/-- The reset memory has the canonical form. -/
theorem reset_memory_wf : Memory.wf State.reset.fs.buf = true := rfl

/-- An inserted cell is the new one or an old one. -/
theorem Memory.mem_insert {m : Memory} {a : Nat} {v : Byte} {c : Host.Cell} (h : c ∈ m.insert a v) :
    c = (a, v) ∨ c ∈ m := by
  induction m with
  | nil => simpa [Memory.insert] using h
  | cons d m ih =>
    obtain ⟨b, w⟩ := d
    simp only [Memory.insert] at h
    split at h
    · simpa using h
    · split at h
      · rcases List.mem_cons.1 h with h | h
        · exact .inl h
        · exact .inr (List.mem_cons_of_mem _ h)
      · rcases List.mem_cons.1 h with h | h
        · exact .inr (h ▸ List.mem_cons_self)
        · exact (ih h).imp_right (List.mem_cons_of_mem _)

/-- The cells of a written slot are its two bytes or old ones. -/
theorem Memory.mem_writeSlot {m : Memory} {i : Nat} {f : Frame} {c : Host.Cell} (h : c ∈ m.writeSlot i f) :
    c = (2 * i, f.extractLsb' 0 8) ∨ c = (2 * i + 1, f.extractLsb' 8 8) ∨ c ∈ m := by
  rcases Memory.mem_insert h with h | h
  · exact .inr (.inl h)
  · rcases Memory.mem_insert h with h | h
    · exact .inl h
    · exact .inr (.inr h)

/-- What a slot write does to each byte. -/
theorem Memory.find?_writeSlot (m : Memory) (i a : Nat) (f : Frame) :
    (m.writeSlot i f).find? a
      = if a = 2 * i + 1 then some (f.extractLsb' 8 8)
        else if a = 2 * i then some (f.extractLsb' 0 8) else m.find? a := by
  simp only [Memory.writeSlot, Memory.find?_insert]

theorem frame_of_bytes (f : Frame) : f.extractLsb' 8 8 ++ f.extractLsb' 0 8 = f := by
  ext i hi
  simp only [BitVec.getElem_append, BitVec.getElem_extractLsb']
  split
  · simp [BitVec.getLsbD_eq_getElem, hi]
  · have : 8 + (i - 8) = i := by omega
    simp [this, BitVec.getLsbD_eq_getElem, hi]

/-- After a PUSH the slot at the old `head` reads the frame. -/
@[simp] theorem State.pushed_readSlot_head (s : State) (f : Frame) : (s.pushed f).readSlot s.fs.head = f := by
  simp [State.readSlot, State.readByte, Memory.find?_writeSlot, frame_of_bytes]

/-- After a PUSH every other byte reads as before. -/
theorem State.pushed_readByte_other (s : State) (f : Frame) {a : Nat} (h : a ≠ 2 * s.fs.head)
    (h' : a ≠ 2 * s.fs.head + 1) : (s.pushed f).readByte a = s.readByte a := by
  simp [State.readByte, Memory.find?_writeSlot, h, h']

/-- After a PUSH every other slot reads as before. -/
theorem State.pushed_readSlot_other (s : State) (f : Frame) {i : Nat} (h : i ≠ s.fs.head) :
    (s.pushed f).readSlot i = s.readSlot i := by
  simp only [State.readSlot]
  rw [State.pushed_readByte_other s f (by omega) (by omega), State.pushed_readByte_other s f (by omega) (by omega)]

end Sys2Proof.Machine
end

