-- ==== Sys2Proof/Laws/Ops.lean ====
section
/-! SUPPORT. One lemma for each shared operation that says everything it can do. -/

namespace Sys2Proof.Machine

theorem State.timedOut_eq_true {s : State} {now : Nat} :
    s.timedOut now = true ↔ s.cfg.timeoutUs < elapsed s.cfg now s.rx.tAnchor := by
  simp [State.timedOut, State.sinceAnchor]

theorem State.timedOut_eq_false {s : State} {now : Nat} :
    s.timedOut now = false ↔ elapsed s.cfg now s.rx.tAnchor ≤ s.cfg.timeoutUs := by
  simp [State.timedOut, State.sinceAnchor]

theorem State.eoiDue_eq_true {s : State} {now : Nat} :
    s.eoiDue now = true ↔ s.rx.eoi = false ∧ s.cfg.eoiUs ≤ elapsed s.cfg now s.rx.tAnchor := by
  simp [State.eoiDue, State.sinceAnchor]

theorem State.eoiDue_eq_false {s : State} {now : Nat} :
    s.eoiDue now = false ↔ (s.rx.eoi = false → elapsed s.cfg now s.rx.tAnchor < s.cfg.eoiUs) := by
  rw [← Bool.not_eq_true, State.eoiDue_eq_true, not_and, Nat.not_le]

theorem State.pulseOver_eq_true {s : State} {now : Nat} :
    s.pulseOver now = true ↔ s.cfg.eoiPulseUs ≤ elapsed s.cfg now s.rx.tPulse := by
  simp [State.pulseOver, State.sincePulse]

theorem State.pulseOver_eq_false {s : State} {now : Nat} :
    s.pulseOver now = false ↔ elapsed s.cfg now s.rx.tPulse < s.cfg.eoiPulseUs := by
  simp [State.pulseOver, State.sincePulse]

/-- `timeRefusal` refuses exactly the STEPs that break 10_state.md R28. -/
theorem State.timeRefusal_eq_none_iff (s : State) (now : Nat) : s.timeRefusal now = none ↔ s.timeMeets now := by
  unfold State.timeRefusal State.timeMeets
  split
  · next h => simp [h]
  · next h =>
    have h : s.clock % s.cfg.timeMod = now := by simpa using h
    cases hl : s.lastStep with
    | none => simp [h]
    | some t =>
      simp only [h, true_and, Option.some.injEq, forall_eq']
      split
      · simp; omega
      · split <;> simp <;> omega

/-- Where `timeRefusal` refuses, it does so under one of three names. -/
theorem State.timeRefusal_eq_some {s : State} {now : Nat} {r : Refusal} (h : s.timeRefusal now = some r) :
    r = .clockMismatch ∨ r = .timeBackwards ∨ r = .gapTooLong := by
  unfold State.timeRefusal at h
  split at h
  · cases h; simp
  · split at h
    · cases h
    · split at h
      · cases h; simp
      · split at h <;> cases h
        simp

/-- A PUSH answers a next state exactly where `head` is a slot index, and then it is `pushed`. -/
theorem push_next_iff {f : Frame} {s t : State} : push f s = .next t ↔ s.fs.head < s.cfg.n ∧ t = s.pushed f := by
  unfold push
  split <;> simp_all [eq_comm]

theorem push_of_lt {f : Frame} {s : State} (h : s.fs.head < s.cfg.n) : push f s = .next (s.pushed f) := by
  simp [push, h]

/-- A completion answers a next state exactly where `head` is a slot index. -/
theorem complete_next_iff {a : Bool} {s t : State} :
    complete a s = .next t ↔ s.fs.head < s.cfg.n ∧ t = (s.completing a).pushed (s.frameOf a) := by
  simp [complete, push_next_iff]

theorem complete_of_lt {a : Bool} {s : State} (h : s.fs.head < s.cfg.n) :
    complete a s = .next ((s.completing a).pushed (s.frameOf a)) := complete_next_iff.2 ⟨h, rfl⟩

/-- What a STEP that answers a next state did: its time met R28, and the one rule of its state ran. -/
theorem execStep_next_iff {inp : StepIn} {s t : State} :
    exec (.step inp) s = .next t ↔ s.timeMeets inp.now ∧ runRule inp s.stepped = .next t := by
  rw [← State.timeRefusal_eq_none_iff]
  simp only [exec, execStep]
  split <;> simp_all

theorem execStep_of_meets {inp : StepIn} {s : State} (h : s.timeMeets inp.now) :
    exec (.step inp) s = runRule inp s.stepped := by
  rw [← State.timeRefusal_eq_none_iff] at h
  simp [exec, execStep, h]

/-- The bits of an assembled frame (30_encoding.md R49, R51). -/
theorem frameWord_getLsbD (a e : Bool) (acc : BitVec 8) (j : Nat) :
    (frameWord a e acc).getLsbD j
      = if j < 8 then acc.getLsbD j else if j = 8 then e else if j = 9 then !a else false := by
  simp only [frameWord, atnFlag, BitVec.getLsbD_setWidth, BitVec.getLsbD_append, BitVec.getLsbD_ofBool]
  by_cases h : j < 8
  · simp [h]; omega
  · by_cases h8 : j = 8
    · simp [h8]
    · by_cases h9 : j = 9
      · simp [h9]
      · have h1 : ¬ j - 8 < 1 := by omega
        have h2 : j - 8 - 1 ≠ 0 := by omega
        simp [h, h8, h9, h1, h2]

/-- The bits of the accumulator after a sample (30_encoding.md R52). -/
theorem sampled_getLsbD (acc : BitVec 8) (i : BitVec 3) (d : Bool) (j : Nat) :
    (sampled acc i d).getLsbD j = (acc.getLsbD j || (d && decide (j = i.toNat))) := by
  have hi : i.toNat < 8 := i.isLt
  cases d
  · simp [sampled]
  · simp only [sampled, if_true, BitVec.getLsbD_or, BitVec.getLsbD_shiftLeft, Bool.true_and]
    congr 1
    by_cases h : j = i.toNat
    · subst h; simp [hi]
    · by_cases hj : j < i.toNat
      · simp [hj, h]
      · have : j - i.toNat ≠ 0 := by omega
        simp [h, this, hj, BitVec.getLsbD_one]

/-- What one RX rule can do to the state it runs in, from any legal `st`: it leaves everything outside the receiver and
the event port, and it touches the frame store only by the PUSH of a completion. -/
inductive RuleOutcome (inp : StepIn) (s : State) : State → Prop
  | waited :
      ((s.rx.st = Code.idle ∧ inp.trig = false) ∨
        (s.rx.st = Code.waitStart ∧ inp.clk = true ∧ s.eoiDue inp.now = false ∧ s.timedOut inp.now = false) ∨
        (s.rx.st = Code.eoiAck ∧ s.pulseOver inp.now = false) ∨
        (s.rx.st = Code.bitReady ∧ inp.clk = false ∧ s.timedOut inp.now = false) ∨
        (s.rx.st = Code.bitRelease ∧ inp.clk = true ∧ s.timedOut inp.now = false)) →
      RuleOutcome inp s (s.rxNext s.rx)
  | started : s.rx.st = Code.idle → inp.trig = true →
      RuleOutcome inp s (s.rxNext { s.rx with dataPull := false, tAnchor := inp.now, eoi := false, abort := false
                                              idx := 0, acc := 0x00, st := Code.waitStart })
  | went : s.rx.st = Code.waitStart → inp.clk = false →
      RuleOutcome inp s (s.rxNext { s.rx with idx := 0, tAnchor := inp.now, st := Code.bitReady })
  | pulseBegan : s.rx.st = Code.waitStart → inp.clk = true → s.eoiDue inp.now = true →
      RuleOutcome inp s (s.rxNext { s.rx with eoi := true, abort := s.timedOut inp.now, dataPull := true
                                              tPulse := inp.now, st := Code.eoiAck })
  | startTimeout : s.rx.st = Code.waitStart → inp.clk = true → s.eoiDue inp.now = false →
      s.timedOut inp.now = true → RuleOutcome inp s (s.abortSession s.rx .startTimeout 0 0)
  | pulseAborted : s.rx.st = Code.eoiAck → s.pulseOver inp.now = true → s.rx.abort = true →
      RuleOutcome inp s (s.abortSession { s.rx with dataPull := false } .startTimeout 0 0)
  | pulseEnded : s.rx.st = Code.eoiAck → s.pulseOver inp.now = true → s.rx.abort = false →
      RuleOutcome inp s (s.rxNext { s.rx with dataPull := false, st := Code.waitStart })
  | ready : s.rx.st = Code.bitReady → inp.clk = true →
      RuleOutcome inp s (s.rxNext { s.rx with st := Code.bitSample })
  | readyTimeout : s.rx.st = Code.bitReady → inp.clk = false → s.timedOut inp.now = true →
      RuleOutcome inp s (s.abortSession s.rx .bitTimeout s.rx.idx 0)
  | sample : s.rx.st = Code.bitSample →
      RuleOutcome inp s (s.rxNext { s.rx with acc := sampled s.rx.acc s.rx.idx inp.data, st := Code.bitRelease
                                              tAnchor := inp.now })
  | nextBit : s.rx.st = Code.bitRelease → inp.clk = false → s.rx.idx < 7 →
      RuleOutcome inp s (s.rxNext { s.rx with idx := s.rx.idx + 1, tAnchor := inp.now, st := Code.bitReady })
  | releaseTimeout : s.rx.st = Code.bitRelease → inp.clk = true → s.timedOut inp.now = true → s.rx.idx < 7 →
      RuleOutcome inp s (s.abortSession s.rx .bitTimeout s.rx.idx 1)
  | completed : s.rx.st = Code.bitRelease → s.rx.idx = 7 → (inp.clk = false ∨ s.timedOut inp.now = true) →
      s.fs.head < s.cfg.n → RuleOutcome inp s ((s.completing inp.atn).pushed (s.frameOf inp.atn))

theorem idx_eq_seven {i : BitVec 3} (h : ¬ i < 7) : i = 7 := by
  have h1 : i.toNat < 8 := i.isLt
  have h2 : ¬ i.toNat < 7 := h
  exact BitVec.eq_of_toNat_eq (by simp; omega)

/-- Everything the rule of a STEP can do, where it answers a next state. -/
theorem runRule_outcome {inp : StepIn} {s t : State} (h : runRule inp s = .next t) : RuleOutcome inp s t := by
  unfold runRule at h
  split at h
  · next hst =>
    split at h
    · next hg => cases h; exact .started hst hg
    · next hg => cases h; exact .waited (.inl ⟨hst, by simpa using hg⟩)
  split at h
  · next hst =>
    split at h
    · next hc =>
      simp only [execStepWaitStartClk1] at h
      split at h
      · next he => cases h; exact .pulseBegan hst hc he
      · next he =>
        split at h
        · next ht => cases h; exact .startTimeout hst hc (by simpa using he) ht
        · next ht => cases h; exact .waited (.inr (.inl ⟨hst, hc, by simpa using he, by simpa using ht⟩))
    · next hc => cases h; exact .went hst (by simpa using hc)
  split at h
  · next hst =>
    split at h
    · next hp =>
      simp only [execStepEoiAckEnd] at h
      split at h
      · next ha => cases h; exact .pulseAborted hst hp ha
      · next ha => cases h; exact .pulseEnded hst hp (by simpa using ha)
    · next hp => cases h; exact .waited (.inr (.inr (.inl ⟨hst, by simpa using hp⟩)))
  split at h
  · next hst =>
    simp only [execStepBitReady] at h
    split at h
    · next hc => cases h; exact .ready hst hc
    · next hc =>
      split at h
      · next ht => cases h; exact .readyTimeout hst (by simpa using hc) ht
      · next ht => cases h; exact .waited (.inr (.inr (.inr (.inl ⟨hst, by simpa using hc, by simpa using ht⟩))))
  split at h
  · next hst => cases h; exact .sample hst
  split at h
  · next hst =>
    split at h
    · next hc =>
      simp only [execStepBitReleaseClk1] at h
      split at h
      · next ht =>
        split at h
        · next hi => cases h; exact .releaseTimeout hst hc ht hi
        · next hi =>
          obtain ⟨hh, rfl⟩ := complete_next_iff.1 h
          exact .completed hst (idx_eq_seven hi) (.inr ht) hh
      · next ht => cases h; exact .waited (.inr (.inr (.inr (.inr ⟨hst, hc, by simpa using ht⟩))))
    · next hc =>
      simp only [execStepBitReleaseClk0] at h
      split at h
      · next hi => cases h; exact .nextBit hst (by simpa using hc) hi
      · next hi =>
        obtain ⟨hh, rfl⟩ := complete_next_iff.1 h
        exact .completed hst (idx_eq_seven hi) (.inl (by simpa using hc)) hh
  · cases h

/-- What a step that answers a next state did: nothing was issued, or the oldest issue ran. -/
theorem step_next_iff {s t : State} :
    step s = .next t ↔ (fetch s = .idle ∧ t = s) ∨ ∃ i u, fetch s = .run i u ∧ exec i u = .next t := by
  unfold step
  cases hf : fetch s with
  | idle => simp [eq_comm]
  | stop r => simp
  | run i u => simp

/-- What the fetch stops on: a word that decodes to nothing, or a record of an operation that no agent issues. -/
theorem fetch_stop {s : State} {r : Refusal} (h : fetch s = .stop r) :
    (∃ w time rest e, s.ops = .word w time :: rest ∧ decode s.cfg w = .error e ∧ r = .malformedWord e) ∨
      ∃ i time rest, s.ops = .record i time :: rest ∧ i.isPortOp = false ∧ r = .notIssuable := by
  unfold fetch at h
  split at h
  · cases h
  · next w time rest ho =>
    split at h
    · cases h
    · next e hd => cases h; exact .inl ⟨w, time, rest, e, ho, hd, rfl⟩
  · next i time rest ho =>
    split at h
    · cases h
    · next hp => cases h; exact .inr ⟨i, time, rest, ho, by simpa using hp, rfl⟩

/-- What the fetch runs: the oldest issue's operation, which an agent may issue, in the state with that issue taken. -/
theorem fetch_run {s u : State} {i : Instr} (h : fetch s = .run i u) :
    i.isPortOp = true ∧ ∃ time rest, u = s.issuedAt time rest ∧
      ((∃ w, s.ops = .word w time :: rest ∧ decode s.cfg w = .ok i) ∨ s.ops = .record i time :: rest) := by
  unfold fetch at h
  split at h
  · cases h
  · next w time rest ho =>
    split at h
    · next j hd =>
      cases h
      refine ⟨?_, time, rest, rfl, .inl ⟨w, ho, hd⟩⟩
      unfold decode decodeStep at hd
      split at hd <;> (try split at hd) <;> (try split at hd) <;> cases hd <;> rfl
    · cases h
  · next j time rest ho =>
    split at h
    · next hp => cases h; exact ⟨hp, time, rest, rfl, .inr ho⟩
    · cases h

end Sys2Proof.Machine
end

