-- ==== Sys2Proof/Laws/PerInstr.lean ====
section
/-! SUPPORT. A fact about each operation as syntax: an operation that fits the operation word is a port operation
(spec/30_encoding.md R54, R64) with well-formed operands, and has a word. -/

namespace Sys2Proof.Laws

/-- What fits the operation word is a port operation, is well formed, and has a word. -/
def Fits.Statement (i : Instr) : Prop :=
  ∀ c : Params, i.fitsWord c = true → i.isPortOp = true ∧ i.wf c = true ∧ (encode c i).isSome = true

theorem Fits.of_no_word {i : Instr} (h : ∀ c, i.fitsWord c = false) : Fits.Statement i :=
  fun c hc => Bool.noConfusion ((h c).symm.trans hc)

theorem Fits.of_word {i : Instr} (hp : i.isPortOp = true) (hw : ∀ c, i.wf c = true)
    (he : ∀ c, i.fitsWord c = true → (encode c i).isSome = true) : Fits.Statement i :=
  fun c hc => ⟨hp, hw c, he c hc⟩

theorem Fits.step (inp : StepIn) : Fits.Statement (.step inp) := by
  intro c h
  refine ⟨rfl, ?_, by simp [encode, h]⟩
  simp [Instr.fitsWord] at h
  exact h.2
theorem Fits.read (n : Nat) : Fits.Statement (.read n) :=
  Fits.of_word rfl (fun _ => rfl) fun c h => by simp [encode, h]
theorem Fits.write (n : Nat) : Fits.Statement (.write n) :=
  Fits.of_word rfl (fun _ => rfl) fun c h => by simp [encode, h]
theorem Fits.reset : Fits.Statement .reset :=
  Fits.of_word rfl (fun _ => rfl) fun c h => by simp [encode, h]
theorem Fits.reserved4to7 (l : BitVec 2) (r : BitVec 36) : Fits.Statement (.reserved4to7 l r) :=
  Fits.of_word rfl (fun _ => rfl) fun c h => by simp [encode, h]
theorem Fits.reserved8toF (l : BitVec 3) (r : BitVec 36) : Fits.Statement (.reserved8toF l r) :=
  Fits.of_word rfl (fun _ => rfl) fun c h => by simp [encode, h]
theorem Fits.push (f : Frame) : Fits.Statement (.push f) := Fits.of_no_word fun _ => rfl
theorem Fits.available : Fits.Statement .available := Fits.of_no_word fun _ => rfl
theorem Fits.drain (m : Nat) : Fits.Statement (.drain m) := Fits.of_no_word fun _ => rfl
theorem Fits.stepIdle : Fits.Statement .stepIdle := Fits.of_no_word fun _ => rfl
theorem Fits.stepIdleStart (n : Nat) : Fits.Statement (.stepIdleStart n) := Fits.of_no_word fun _ => rfl
theorem Fits.stepWaitStartClk0 (n : Nat) : Fits.Statement (.stepWaitStartClk0 n) := Fits.of_no_word fun _ => rfl
theorem Fits.stepWaitStartClk1 (n : Nat) : Fits.Statement (.stepWaitStartClk1 n) := Fits.of_no_word fun _ => rfl
theorem Fits.stepEoiAckRun : Fits.Statement .stepEoiAckRun := Fits.of_no_word fun _ => rfl
theorem Fits.stepEoiAckEnd : Fits.Statement .stepEoiAckEnd := Fits.of_no_word fun _ => rfl
theorem Fits.stepBitReady (k : Bool) (n : Nat) : Fits.Statement (.stepBitReady k n) := Fits.of_no_word fun _ => rfl
theorem Fits.stepBitSample (d : Bool) (n : Nat) : Fits.Statement (.stepBitSample d n) := Fits.of_no_word fun _ => rfl
theorem Fits.stepBitReleaseClk0 (a : Bool) (n : Nat) : Fits.Statement (.stepBitReleaseClk0 a n) :=
  Fits.of_no_word fun _ => rfl
theorem Fits.stepBitReleaseClk1 (a : Bool) (n : Nat) : Fits.Statement (.stepBitReleaseClk1 a n) :=
  Fits.of_no_word fun _ => rfl
theorem Fits.stepIllegalState : Fits.Statement .stepIllegalState := Fits.of_no_word fun _ => rfl

end Sys2Proof.Laws
end

