-- ==== Sys2Proof/Machine/Script.lean ====
section
/-! DEFINITION. Scripts: the environment's programs for the core (spec/30_encoding.md R66 to R69): their lines, the
pseudo-operations and their expansions, the translation into issued operations, and a reader of the written form. -/

namespace Sys2Proof.Machine

/-- A line of a script (R66). A level a STEP does not name is `none` (R67). -/
inductive Line where
  | step (t : Nat) (trig clk data atn : Option Bool)
  | read (count : Nat)
  | write (count : Nat)
  | reset
deriving DecidableEq, Repr

/-- The pseudo-operations that expand to STEP lines (R68). -/
inductive Pseudo where
  | start (t : Nat)
  | go (t : Nat)
  | bit (v : Bool) (t : Nat)
  | byte (b : Byte) (t : Nat)
  | eoiByte (b : Byte) (t : Nat)
deriving DecidableEq, Repr

/-- An item of a script: a line, a pseudo-operation, or `REPEAT k PERIOD p` of a body (R68). -/
inductive Item where
  | line (l : Line)
  | pseudo (p : Pseudo)
  | rep (k period : Nat) (body : List Item)

/-- `STEP t=T` with every level kept. -/
def Line.poll (t : Nat) : Line := .step t none none none none

/-- `START T`: `STEP t=T trig=1 clk=1` (R68). -/
def startLines (t : Nat) : List Line := [.step t (some true) (some true) none none]

/-- `GO T`: `STEP t=T clk=0` (R68). -/
def goLines (t : Nat) : List Line := [.step t none (some false) none none]

/-- `BIT v, T`: `STEP t=T clk=1 data=v`, `STEP t=T+1`, `STEP t=T+60 clk=0` (R68). -/
def bitLines (v : Bool) (t : Nat) : List Line :=
  [.step t none (some true) (some v) none, Line.poll (t + 1), .step (t + 60) none (some false) none none]

/-- For i = 0..7: `BIT b[i], T+100·i` (R68). -/
def bitsLines (b : Byte) (t : Nat) : List Line :=
  (List.range 8).flatMap fun i => bitLines (b.getLsbD i) (t + 100 * i)

/-- The expansion of a pseudo-operation (R68). -/
def Pseudo.expand : Pseudo → List Line
  | .start t => startLines t
  | .go t => goLines t
  | .bit v t => bitLines v t
  | .byte b t => startLines t ++ [Line.poll (t + 50)] ++ goLines (t + 100) ++ bitsLines b (t + 200)
  | .eoiByte b t =>
    startLines t ++ [Line.poll (t + 210), Line.poll (t + 290)] ++ goLines (t + 400) ++ bitsLines b (t + 500)

/-- A line with its time offset by `d`. -/
def Line.later (d : Nat) : Line → Line
  | .step t trig clk data atn => .step (t + d) trig clk data atn
  | .read count => .read count
  | .write count => .write count
  | .reset => .reset

/-- `k` copies of the lines, the j-th offset by `j·period` (R68). -/
def repeated (k period : Nat) (ls : List Line) : List Line :=
  (List.range k).flatMap fun j => ls.map (Line.later (j * period))

mutual
/-- The lines of an item (R68). -/
def Item.expand : Item → List Line
  | .line l => [l]
  | .pseudo p => p.expand
  | .rep k period body => repeated k period (Item.expandAll body)

/-- The lines of a script (R66, R68). -/
def Item.expandAll : List Item → List Line
  | [] => []
  | i :: is => Item.expand i ++ Item.expandAll is
end

/-- The levels a script has reached, and its last time: a STEP that names no level keeps the previous one (R67). -/
structure Levels where
  clk : Bool
  data : Bool
  atn : Bool
  t : Nat
deriving DecidableEq, Repr

/-- The levels after a line (R67). -/
def Levels.next (v : Levels) : Line → Levels
  | .step t _ clk data atn => { clk := clk.getD v.clk, data := data.getD v.data, atn := atn.getD v.atn, t := t }
  | .read _ => v
  | .write _ => v
  | .reset => v

/-- The operation of a line, its levels being `v` (R66, R67): `now_us = T mod 2^TIME_W`, `trig` defaults to 0. -/
def Line.instr (c : Params) (v : Levels) : Line → Instr
  | .step t trig _ _ _ =>
    .step { trig := trig.getD false, clk := v.clk, data := v.data, atn := v.atn, now := t % c.timeMod }
  | .read count => .read count
  | .write count => .write count
  | .reset => .reset

/-- An operation issued at `time`: its word where it has one (R69), else its abstract record (R56, R57; log 13). -/
def issueInstr (c : Params) (i : Instr) (time : Nat) : Issue :=
  match encode c i with
  | some w => .word w time
  | none => .record i time

/-- What a script's lines issue, from start levels `v` (R67). -/
def issueLines (c : Params) (v : Levels) : List Line → List Issue
  | [] => []
  | l :: ls => issueInstr c (l.instr c (v.next l)) (v.next l).t :: issueLines c (v.next l) ls

/-- What a script issues (R66 to R69). -/
def issueScript (c : Params) (v : Levels) (is : List Item) : List Issue := issueLines c v (Item.expandAll is)

/-! ## The written form (R66, R68); log 16 -/

/-- Tokens of a script: words, line ends, the two braces of REPEAT. -/
inductive Tok where
  | word (cs : List Char)
  | newline
  | openBrace
  | closeBrace
deriving DecidableEq, Repr

/-- A finished word as a token; an empty one is none. -/
def flushWord (cur : List Char) : List Tok := if cur = [] then [] else [.word cur.reverse]

/-- Words are separated by spaces and commas; `#` starts a comment to the end of the line (R66). -/
def tokens (comment : Bool) (cur : List Char) : List Char → List Tok
  | [] => flushWord cur
  | ch :: rest =>
    if ch = '\n' then flushWord cur ++ .newline :: tokens false [] rest
    else if comment then tokens true [] rest
    else if ch = '#' then flushWord cur ++ tokens true [] rest
    else if ch = ' ' || ch = '\t' || ch = ',' then flushWord cur ++ tokens false [] rest
    else if ch.toNat = 123 then flushWord cur ++ .openBrace :: tokens false [] rest
    else if ch.toNat = 125 then flushWord cur ++ .closeBrace :: tokens false [] rest
    else tokens false (ch :: cur) rest

/-- The value of a digit, decimal or hexadecimal. -/
def digit? (ch : Char) : Option Nat :=
  if 48 ≤ ch.toNat ∧ ch.toNat ≤ 57 then some (ch.toNat - 48)
  else if 65 ≤ ch.toNat ∧ ch.toNat ≤ 70 then some (ch.toNat - 55)
  else if 97 ≤ ch.toNat ∧ ch.toNat ≤ 102 then some (ch.toNat - 87)
  else none

/-- The value of digits in a base, from `acc` on. -/
def digits? (base acc : Nat) : List Char → Option Nat
  | [] => some acc
  | ch :: cs =>
    match digit? ch with
    | some d => if d < base then digits? base (acc * base + d) cs else none
    | none => none

/-- A decimal number. -/
def decimal? : List Char → Option Nat
  | [] => none
  | ch :: cs => digits? 10 0 (ch :: cs)

/-- A decimal number, or a hexadecimal one after `0x` (00_scope.md R7). -/
def number? : List Char → Option Nat
  | '0' :: 'x' :: ch :: cs => digits? 16 0 (ch :: cs)
  | cs => decimal? cs

/-- `<b>`: 0 or 1 (R66). -/
def level? : List Char → Option Bool
  | ['0'] => some false
  | ['1'] => some true
  | _ => none

/-- A byte operand. -/
def byte? (cs : List Char) : Option Byte :=
  match number? cs with
  | some b => if b < 256 then some (BitVec.ofNat 8 b) else none
  | none => none

/-- What follows `key` in a word, where the word begins with it. -/
def after? : List Char → List Char → Option (List Char)
  | [], cs => some cs
  | _ :: _, [] => none
  | k :: ks, ch :: cs => if k = ch then after? ks cs else none

/-- An optional `key=<b>` at the front of a STEP line's words (R66). -/
def optLevel (key : String) : List (List Char) → Option (Option Bool × List (List Char))
  | [] => some (none, [])
  | w :: ws =>
    match after? key.toList w with
    | none => some (none, w :: ws)
    | some v =>
      match level? v with
      | some b => some (some b, ws)
      | none => none

/-- `t=<T> [trig=<b>] [clk=<b>] [data=<b>] [atn=<b>]` (R66). -/
def stepArgs? : List (List Char) → Option Line
  | [] => none
  | w :: ws => do
    let t ← (after? "t=".toList w).bind decimal?
    let (trig, ws) ← optLevel "trig=" ws
    let (clk, ws) ← optLevel "clk=" ws
    let (data, ws) ← optLevel "data=" ws
    let (atn, ws) ← optLevel "atn=" ws
    if ws = [] then some (.step t trig clk data atn) else none

/-- The line or pseudo-operation a line's words spell (R66, R68). -/
def item? (ws : List (List Char)) : Option Item :=
  match ws with
  | [] => none
  | key :: args =>
    if key = "STEP".toList then (stepArgs? args).map .line
    else
      match args with
      | [] => if key = "RESET".toList then some (.line .reset) else none
      | [a] =>
        if key = "READ".toList then (number? a).map fun n => .line (.read n)
        else if key = "WRITE".toList then (number? a).map fun n => .line (.write n)
        else if key = "START".toList then (number? a).map fun n => .pseudo (.start n)
        else if key = "GO".toList then (number? a).map fun n => .pseudo (.go n)
        else none
      | [a, b] =>
        if key = "BIT".toList then do some (.pseudo (.bit (← level? a) (← number? b)))
        else if key = "BYTE".toList then do some (.pseudo (.byte (← byte? a) (← number? b)))
        else if key = "EOIBYTE".toList then do some (.pseudo (.eoiByte (← byte? a) (← number? b)))
        else none
      | _ :: _ :: _ :: _ => none

/-- `REPEAT k PERIOD p` before an opening brace (R68). -/
def repeat? : List (List Char) → Option (Nat × Nat)
  | [key, k, per, p] =>
    if key = "REPEAT".toList ∧ per = "PERIOD".toList then do some (← number? k, ← number? p) else none
  | _ => none

/-- The words up to the next token that is none. -/
def takeWords : List Tok → List (List Char) × List Tok
  | .word w :: ts => (w :: (takeWords ts).1, (takeWords ts).2)
  | ts => ([], ts)

/-- The items up to the end of the text or an unmatched closing brace, in at most `fuel` reading steps. -/
def items? : Nat → List Tok → Option (List Item × List Tok)
  | 0, _ => none
  | _ + 1, [] => some ([], [])
  | _ + 1, .closeBrace :: ts => some ([], .closeBrace :: ts)
  | fuel + 1, .newline :: ts => items? fuel ts
  | _ + 1, .openBrace :: _ => none
  | fuel + 1, .word w :: ts =>
    let ws := (takeWords (.word w :: ts)).1
    match (takeWords (.word w :: ts)).2 with
    | .openBrace :: rest => do
      let (k, period) ← repeat? ws
      match ← items? fuel rest with
      | (body, .closeBrace :: rest) => do
        let (is, rest) ← items? fuel rest
        some (.rep k period body :: is, rest)
      | _ => none
    | rest => do
      let i ← item? ws
      let (is, rest) ← items? fuel rest
      some (i :: is, rest)

/-- The items a script's text spells, `none` where it is no script (R66, R68). -/
def parseScript (text : List Char) : Option (List Item) :=
  let ts := tokens false [] text
  match items? (ts.length + 1) ts with
  | some (is, []) => some is
  | _ => none

end Sys2Proof.Machine
end

