-- ==== Sys2Proof/Tests/Slice0.lean ====
section
/-! SUPPORT. Tests of the model against the words and the vectors of spec/95_test_vectors.md and against words written
out from spec/30_encoding.md, and a witness for every statement that has hypotheses. -/

namespace Sys2Proof.Tests

open Sys2Proof Sys2Proof.Machine

/-! ## Helpers -/

/-- The state an answer goes on in. -/
def out : Answer → Option State
  | .next s => some s
  | .fault _ => none
  | .refused _ => none

/-- The reason an answer is refused for. -/
def refusalOf : Answer → Option Refusal
  | .next _ => none
  | .fault _ => none
  | .refused r => some r

/-- The reason an answer faults for. -/
def faultOf : Answer → Option Fault
  | .next _ => none
  | .fault f => some f
  | .refused _ => none

/-- What a decoder gives, where it gives an operation. -/
def okOf : Except DecodeError Instr → Option Instr
  | .ok i => some i
  | .error _ => none

/-- Why a decoder gives none. -/
def errorOf : Except DecodeError Instr → Option DecodeError
  | .ok _ => none
  | .error e => some e

/-- Receiver registers in state `st`, the rest as RESET leaves it. -/
def rxIn (st : BitVec 3) : RxState := { RxState.reset with st := st }

/-- The reset machine with registers `r` at true time `t`. -/
def stateOf (r : RxState) (t : Nat) : State := { State.reset with rx := r, clock := t }

/-- The reset machine with a store whose pointers are `h` and `tl`. -/
def storeAt (h tl : Nat) : State := { State.reset with fs := { FsState.reset 0 with head := h, tail := tl } }

/-- The inputs of a STEP without a trigger. -/
def poll (now : Nat) (clk data atn : Bool) : StepIn := { trig := false, clk := clk, data := data, atn := atn, now := now }

/-- The inputs of a STEP with a trigger. -/
def trigger (now : Nat) : StepIn := { trig := true, clk := true, data := false, atn := true, now := now }

/-- The registers a STEP leaves. -/
def rxAfter (inp : StepIn) (s : State) : Option RxState := (out (exec (.step inp) s)).map fun t => t.rx

/-- The event record a STEP emits. -/
def evAfter (inp : StepIn) (s : State) : Option (BitVec 22) := (out (exec (.step inp) s)).map fun t => t.ev.record

/-- A small configuration: three slots, 16 bits of time. -/
def small : Params :=
  { n := 3, eoiUs := 200, eoiPulseUs := 80, timeoutUs := 10000, timeW := 16, byteOrder := .be
    n_pos := by decide, timeW_ge := by decide }

/-- The reset state of the small configuration. -/
def smallReset : State := { State.reset with cfg := small }

/-- From what an answer's state satisfies to the statement about the answer. -/
theorem answers {a : Answer} (p : State → Bool) (h : (out a).any p = true) : ∃ t, a = .next t ∧ p t = true := by
  cases a with
  | next s => exact ⟨s, rfl, h⟩
  | fault f => cases h
  | refused r => cases h

theorem meets {s : State} {now : Nat} (h : s.timeRefusal now = none) : s.timeMeets now :=
  (State.timeRefusal_eq_none_iff s now).1 h

/-! ## WellFormed: each check refuses an ill-formed operation -/

theorem test_wf_time : Instr.wf small (.step (poll 65536 true false true)) = false
    ∧ Instr.wf small (.stepIdleStart 65536) = false ∧ Instr.wf small (.stepBitReady true 65536) = false := by decide

theorem test_wf_time_edge : Instr.wf small (.step (poll 65535 true false true)) = true := by decide

theorem test_wf_frame : Instr.wf small (.push 0x0400) = false ∧ Instr.wf small (.push 0x03FF) = true := by decide

theorem test_fits_count : Instr.fitsWord Params.defaults (.read (2 ^ 32)) = false
    ∧ Instr.fitsWord Params.defaults (.write (2 ^ 32)) = false
    ∧ Instr.fitsWord Params.defaults (.read (2 ^ 32 - 1)) = true := by decide

theorem test_fits_internal : Instr.fitsWord small (.push 0) = false ∧ Instr.fitsWord small .stepIdle = false := by decide

theorem test_fits_wide : Instr.fitsWord { small with timeW := 33, timeW_ge := by decide } (.step (poll 0 true true true))
    = false := by decide

/-! ## Decoding: words written out from 30_encoding.md R53, R54, R64, and V37 to V41 -/

/-- V37. -/
theorem test_decode_step : okOf (decode Params.defaults 0x000003E8F0#40)
    = some (.step { trig := true, clk := true, data := true, atn := true, now := 1000 }) := by decide

/-- Program P2, line 5: `STEP t=5290 clk=1 data=0 atn=0`. -/
theorem test_decode_step_levels : okOf (decode Params.defaults 0x000014AA20#40)
    = some (.step { trig := false, clk := true, data := false, atn := false, now := 5290 }) := by decide

theorem test_decode_read : okOf (decode Params.defaults 0xFFFFFFFF01#40) = some (.read 4294967295) := by decide

theorem test_decode_write : okOf (decode Params.defaults 0x0000000202#40) = some (.write 2) := by decide

theorem test_decode_reset : okOf (decode Params.defaults 0x0000000003#40) = some .reset := by decide

/-- Reserved words: op `0x4`, `0x7`, `0x8`, `0xF` (V39). -/
theorem test_decode_reserved :
    okOf (decode Params.defaults 0x0000000004#40) = some (.reserved4to7 0b00 0)
    ∧ okOf (decode Params.defaults 0x0000000017#40) = some (.reserved4to7 0b11 1)
    ∧ okOf (decode Params.defaults 0x0000000008#40) = some (.reserved8toF 0b000 0)
    ∧ okOf (decode Params.defaults 0x000000000F#40) = some (.reserved8toF 0b111 0) := by decide

/-- Malformed words (V39; V41 with `TIME_W = 16`; R56 for a wide time). -/
theorem test_decode_malformed :
    errorOf (decode Params.defaults 0x0000000013#40) = some .mustBeZero
    ∧ errorOf (decode Params.defaults 0x0000000103#40) = some .mustBeZero
    ∧ errorOf (decode Params.defaults 0x0000000211#40) = some .mustBeZero
    ∧ errorOf (decode Params.defaults 0x0000000282#40) = some .mustBeZero
    ∧ errorOf (decode small 0x0001000020#40) = some .timeBits
    ∧ errorOf (decode { small with timeW := 33, timeW_ge := by decide } 0x0000000000#40) = some .wideTime := by decide

/-- V38, V40. -/
theorem test_encode : encode Params.defaults (.read 2) = some 0x0000000201#40
    ∧ encode Params.defaults (.write 2) = some 0x0000000202#40
    ∧ encode Params.defaults .reset = some 0x0000000003#40
    ∧ encode Params.defaults (.step (poll 4294967295 true false false)) = some 0xFFFFFFFF20#40 := by decide

/-- The internal codes (R64). -/
theorem test_decode_internal : decodeInternal 0b00 0x0041 9 = some (.push 0x0041)
    ∧ decodeInternal 0b01 0x0041 9 = some .available ∧ decodeInternal 0b10 0x0041 9 = some (.drain 9)
    ∧ decodeInternal 0b11 0x0041 9 = none := by decide

/-- The state codes of the rules of IDLE, WAIT_START and EOI_ACK (R53). -/
theorem test_decode_rule_waiting :
    decodeRule 0b000 (poll 7 true true true) false = .stepIdle
    ∧ decodeRule 0b000 (trigger 7) false = .stepIdleStart 7
    ∧ decodeRule 0b001 (poll 7 false true true) false = .stepWaitStartClk0 7
    ∧ decodeRule 0b001 (poll 7 true true true) false = .stepWaitStartClk1 7
    ∧ decodeRule 0b010 (poll 7 true true true) false = .stepEoiAckRun
    ∧ decodeRule 0b010 (poll 7 false true true) true = .stepEoiAckEnd := by decide

/-- The state codes of the rules of a bit, and the unused ones (R53, R61). -/
theorem test_decode_rule_bits :
    decodeRule 0b011 (poll 7 true false true) false = .stepBitReady true 7
    ∧ decodeRule 0b100 (poll 7 true false true) false = .stepBitSample false 7
    ∧ decodeRule 0b101 (poll 7 false true false) false = .stepBitReleaseClk0 false 7
    ∧ decodeRule 0b101 (poll 7 true true false) false = .stepBitReleaseClk1 false 7
    ∧ decodeRule 0b110 (poll 7 true true false) false = .stepIllegalState
    ∧ decodeRule 0b111 (poll 7 true true false) true = .stepIllegalState := by decide

/-- The host's reading of a table word. -/
theorem test_table_word : decodeTableWord 40 0x000003E8B0
      = some (.step { trig := true, clk := true, data := false, atn := true, now := 1000 })
    ∧ decodeTableWord 8 0x01 = some (.read 0) ∧ decodeTableWord 40 0x0000000013 = none := by decide

/-! ## The receiver: vectors V1 to V21 -/

/-- V1. -/
theorem test_idle : rxAfter (poll 5 true true false) (stateOf RxState.reset 5) = some RxState.reset
    ∧ evAfter (poll 5 true true false) (stateOf RxState.reset 5) = some 0x000000 := by decide

/-- V2. -/
theorem test_session_start :
    rxAfter (trigger 1000) (stateOf { RxState.reset with dataPull := true, acc := 0x41, idx := 7, eoi := true } 1000)
      = some { rxIn 0b001 with tAnchor := 1000 } := by decide

/-- V16. -/
theorem test_wait_start_clk0 :
    rxAfter (poll 20000 false false true) (stateOf (rxIn 0b001) 20000) = some { rxIn 0b011 with tAnchor := 20000 } := by
  decide

/-- V3 to V7: the two thresholds of the start wait, each from both sides, and which wins. -/
theorem test_wait_start_clk1 :
    rxAfter (poll 11000 true false true) (stateOf { rxIn 0b001 with tAnchor := 1000, eoi := true } 11000)
      = some { rxIn 0b001 with tAnchor := 1000, eoi := true }
    ∧ rxAfter (poll 1199 true false true) (stateOf { rxIn 0b001 with tAnchor := 1000 } 1199)
      = some { rxIn 0b001 with tAnchor := 1000 }
    ∧ rxAfter (poll 1200 true false true) (stateOf { rxIn 0b001 with tAnchor := 1000 } 1200)
      = some { rxIn 0b010 with tAnchor := 1000, eoi := true, dataPull := true, tPulse := 1200 }
    ∧ rxAfter (poll 11001 true false true) (stateOf { rxIn 0b001 with tAnchor := 1000 } 11001)
      = some { rxIn 0b010 with tAnchor := 1000, eoi := true, abort := true, dataPull := true, tPulse := 11001 } := by
  decide

/-- V4: `0x000002`. -/
theorem test_start_timeout :
    evAfter (poll 11001 true false true) (stateOf { rxIn 0b001 with tAnchor := 1000, eoi := true } 11001)
      = some 0x000002 := by decide

/-- V9. -/
theorem test_eoi_ack_run :
    rxAfter (poll 1279 false false true)
        (stateOf { rxIn 0b010 with tAnchor := 1000, tPulse := 1200, eoi := true, dataPull := true } 1279)
      = some { rxIn 0b010 with tAnchor := 1000, tPulse := 1200, eoi := true, dataPull := true } := by decide

/-- V10. -/
theorem test_eoi_ack_end :
    rxAfter (poll 1280 false false true)
        (stateOf { rxIn 0b010 with tAnchor := 1000, tPulse := 1200, eoi := true, dataPull := true } 1280)
      = some { rxIn 0b001 with tAnchor := 1000, tPulse := 1200, eoi := true } := by decide

/-- V8. -/
theorem test_eoi_ack_abort :
    let s := stateOf { rxIn 0b010 with tAnchor := 1000, tPulse := 11001, eoi := true, abort := true, dataPull := true } 11081
    (rxAfter (poll 11081 true false true) s).map (fun r => (r.st, r.dataPull)) = some (0b000, false)
    ∧ evAfter (poll 11081 true false true) s = some 0x000002 := by decide

/-- V15: the line wins over the expired timeout. -/
theorem test_bit_ready_line_wins :
    rxAfter (poll 20000 true false true) (stateOf (rxIn 0b011) 20000) = some (rxIn 0b100) := by decide

/-- V11 and V20: a timeout at bit 7, and one across the wrap of the clock. -/
theorem test_bit_ready_timeout :
    evAfter (poll 12001 false false true) (stateOf { rxIn 0b011 with idx := 7, tAnchor := 2000 } 12001) = some 0x00001F
    ∧ evAfter (poll 0x00000710 false false true)
        (stateOf { rxIn 0b011 with idx := 1, tAnchor := 0xFFFFE000 } 0x100000710) = some 0x000000
    ∧ evAfter (poll 0x00000711 false false true)
        (stateOf { rxIn 0b011 with idx := 1, tAnchor := 0xFFFFE000 } 0x100000711) = some 0x000007 := by decide

/-- V17. -/
theorem test_bit_sample :
    rxAfter (poll 301 true false true) (stateOf (rxIn 0b100) 301) = some { rxIn 0b101 with tAnchor := 301 }
    ∧ rxAfter (poll 301 true true true) (stateOf (rxIn 0b100) 301) = some { rxIn 0b101 with tAnchor := 301, acc := 0x01 } := by
  decide

/-- Program P1, line 24: bit 6 of `0x41`. -/
theorem test_bit_sample_six :
    rxAfter (poll 1801 true true true) (stateOf { rxIn 0b100 with idx := 6, acc := 0x01 } 1801)
      = some { rxIn 0b101 with idx := 6, acc := 0x41, tAnchor := 1801 } := by decide

/-- V18. -/
theorem test_bit_release_next :
    rxAfter (poll 560 false false true) (stateOf { rxIn 0b101 with idx := 2 } 560)
      = some { rxIn 0b011 with idx := 3, tAnchor := 560 } := by decide

/-- The state before V19, at true time 9. -/
def beforeV19 : State :=
  { stateOf { rxIn 0b101 with idx := 7, acc := 0xA5, eoi := true } 9 with
    fs := { FsState.reset 0 with head := 1023, tail := 1000 } }

/-- V19. -/
theorem test_bit_release_complete :
    (out (exec (.step (poll 9 false false false)) beforeV19)).map (fun t => t.fs)
      = some { FsState.reset 0 with buf := [(2046, 0xA5), (2047, 0x03)], head := 0, tail := 1000 }
    ∧ (rxAfter (poll 9 false false false) beforeV19).map (fun r => (r.st, r.dataPull)) = some (0b000, true)
    ∧ evAfter (poll 9 false false false) beforeV19 = some 0x00E941 := by decide

/-- V13: a tie is not a timeout; the phase of the release wait is 1. -/
theorem test_bit_release_timeout :
    evAfter (poll 12001 true false true) (stateOf { rxIn 0b101 with idx := 6, tAnchor := 2001 } 12001) = some 0x000000
    ∧ evAfter (poll 12002 true false true) (stateOf { rxIn 0b101 with idx := 6, tAnchor := 2001 } 12002)
      = some 0x00003B := by decide

/-- V12: the timeout of bit 7 keeps the byte. -/
theorem test_bit_seven_kept :
    (out (exec (.step (poll 12002 true false true)) (stateOf { rxIn 0b101 with idx := 7, tAnchor := 2001, acc := 0x80 }
        12002))).map (fun t => (t.fs.head, t.fs.buf, t.rx.dataPull, t.ev.record))
      = some (1, [(0, 0x80), (1, 0x00)], true, 0x002001) := by decide

/-- V21: a trigger in a session. -/
theorem test_trigger_ignored :
    rxAfter (trigger 1100) (stateOf { rxIn 0b001 with tAnchor := 1000 } 1100) = some { rxIn 0b001 with tAnchor := 1000 } := by
  decide

/-- V43. -/
theorem test_illegal_state : refusalOf (exec (.step (poll 0 true true true)) (stateOf (rxIn 0b110) 0))
    = some (.illegalState 0b110) := by decide

/-- 93_implementation_defined.md I14, I15, and a time input that is not the true time. -/
theorem test_time_refused :
    refusalOf (exec (.step (poll 8 true true true)) (stateOf (rxIn 0b000) 9)) = some .clockMismatch
    ∧ refusalOf (exec (.step (poll 8 true true true)) { stateOf (rxIn 0b000) 8 with lastStep := some 9 })
      = some .timeBackwards
    ∧ refusalOf (exec (.step (poll 4294957216 true true true))
        { stateOf (rxIn 0b000) 4294957216 with lastStep := some 0 }) = some .gapTooLong
    ∧ refusalOf (exec (.step (poll 4294957215 true true true))
        { stateOf (rxIn 0b000) 4294957215 with lastStep := some 0 }) = none := by decide

/-! ## The frame store and the port: vectors V22 to V36, V44 -/

/-- V22, V25: PUSH at the last slot wraps `head`. -/
theorem test_push : (out (exec (.push 0x0022) (storeAt 1023 0))).map (fun t => (t.fs.head, t.fs.buf, t.available))
      = some (0, [(2046, 0x22), (2047, 0x00)], 0)
    ∧ (out (exec (.push 0x0041) (storeAt 1023 5))).map (fun t => (t.fs.head, t.available)) = some (0, 1019) := by decide

/-- A slot written again holds the later frame, in its place in the canonical form. -/
theorem test_push_again :
    ((Memory.writeSlot [(0, 1), (1, 0), (4, 7), (5, 0)] 1 0x0142).writeSlot 0 0x0203)
      = [(0, 0x03), (1, 0x02), (2, 0x42), (3, 0x01), (4, 7), (5, 0)] := by decide

/-- V26. -/
theorem test_available : (storeAt 2 1020).available = 6 ∧ (storeAt 7 7).available = 0 ∧ (storeAt 0 1).available = 1023
    ∧ (out (exec .available (storeAt 2 1020))).map (fun t => t.reply) = some (.count 6) := by decide

/-- A store of three frames, `0x0041`, `0x0142`, `0x0243`, in slots 0 to 2 (V31). -/
def three : State :=
  { State.reset with
    fs := { FsState.reset 0 with
            buf := [(0, 0x41), (1, 0x00), (2, 0x42), (3, 0x01), (4, 0x43), (5, 0x02)], head := 3 } }

/-- 95_test_vectors.md S2 in shape: the two oldest frames, in order. -/
theorem test_drain : (out (exec (.drain 2) three)).map (fun t => (t.reply, t.fs.tail))
    = some (.frames [0x0041, 0x0142], 2) := by decide

/-- V28 (b). -/
theorem test_drain_empty : (out (exec (.drain 5) (storeAt 9 9))).map (fun t => (t.reply, t.fs.tail))
    = some (.frames [], 9) := by decide

/-- V31. -/
theorem test_read : (out (exec (.read 7) three)).map (fun t => (t.reply, t.fs.tail, t.available))
    = some (.bytes [0x41, 0x00, 0x42, 0x01, 0x43, 0x02], 3, 0) := by decide

/-- V30, V32. -/
theorem test_read_nothing : (out (exec (.read 1) three)).map (fun t => (t.reply, t.fs.tail)) = some (.bytes [], 0)
    ∧ (out (exec (.read 8) (storeAt 17 17))).map (fun t => (t.reply, t.fs.tail)) = some (.bytes [], 17) := by decide

/-- V35. -/
theorem test_ser : ser .le 0x03A5 = [0xA5, 0x03] ∧ ser .be 0x0100 = [0x01, 0x00] := by decide

/-- V36. -/
theorem test_write : (out (exec (.write 4) three)).map (fun t => (t.rx, t.fs, t.ev)) = some (three.rx, three.fs, three.ev) := by
  decide

/-- V44: RESET, then a READ finds nothing. -/
theorem test_reset :
    (out (exec .reset { stateOf { rxIn 0b100 with idx := 4, acc := 0x0F } 0 with
                        fs := { FsState.reset 0 with head := 7, tail := 3 } })).map
      (fun t => (t.rx, t.fs.head, t.fs.tail, t.available, t.ev.record)) = some (RxState.reset, 0, 0, 0, 0x000000) := by
  decide

/-- V39: a reserved word is refused. -/
theorem test_reserved : refusalOf (exec (.reserved4to7 0b00 0) State.reset) = some (.reservedOp 0x4)
    ∧ refusalOf (exec (.reserved8toF 0b111 0) State.reset) = some (.reservedOp 0xF) := by decide

/-! ## The machine -/

/-- A word placed with `withFetchWord` is what the next step runs. -/
theorem test_fetch_word :
    fetch (State.reset.withFetchWord 40 0x000003E8B0)
      = .run (.step { trig := true, clk := true, data := false, atn := true, now := 1000 })
          { State.reset with clock := 1000 }
    ∧ (out (step (State.reset.withFetchWord 40 0x000003E8B0))).map (fun t => (t.rx.st, t.rx.tAnchor))
      = some (0b001, 1000) := by decide

/-- The host's interface is this machine. -/
theorem test_core : Sys2Proof.core.reset = State.reset := rfl

/-! ## Scripts: 30_encoding.md R66 to R69 -/

/-- Program P2's first lines: levels are kept, a comment is skipped, a pseudo-operation expands (R68). -/
theorem test_script_reads :
    (parseScript "RESET\nSTEP  t=4000 atn=0   # the controller\nBIT 1, 5500\nREAD 7".toList).map
        (issueScript Params.defaults { clk := false, data := false, atn := true, t := 0 })
      = some [.word 0x0000000003#40 0, .word 0x00000FA000#40 4000, .word 0x0000157C60#40 5500,
              .word 0x0000157D60#40 5501, .word 0x000015B840#40 5560, .word 0x0000000701#40 5560] := by decide +kernel

/-- V40: the time modulo `2^32`, at its true time. -/
theorem test_script_time :
    issueScript Params.defaults { clk := false, data := false, atn := false, t := 0 }
        [.line (.step 4294967296 none (some true) none none)] = [.word 0x0000000020#40 4294967296] := by decide

/-- The times of `BYTE 0x41, 1000` (R68, program P1): 27 lines, the last at `t = 1960`. -/
theorem test_script_byte : ((Pseudo.byte 0x41 1000).expand.length = 27)
    ∧ (Pseudo.byte 0x41 1000).expand.getLast? = some (.step 1960 none (some false) none none)
    ∧ (Pseudo.byte 0x41 1000).expand[3]? = some (.step 1200 none (some true) (some true) none) := by decide

/-- `REPEAT k PERIOD p` (R68): the second copy is offset by the period. -/
theorem test_script_repeat :
    Item.expandAll [.rep 2 1000 [.pseudo (.go 10)]]
      = [.step 10 none (some false) none none, .step 1010 none (some false) none none] := by decide

/-! ## Witnesses: for each statement with hypotheses, a state and operands that meet them all -/

/-- The state before bit 7 completes: eight levels seen, `0x41`. -/
def atBitSeven (t : Nat) : State :=
  { stateOf { rxIn 0b101 with idx := 7, acc := 0x41, tAnchor := 1901 } t with lastStep := some 1901 }

/-- `s` with one word issued at its true time. -/
def issuing (s : State) (w : OpWord) : State := { s with ops := [.word w s.clock] }

/-- A word of each port operation fits, at the edges of its operands. -/
theorem witness_DecodeOfEncodeIsTheOperation :
    Instr.fitsWord Params.defaults (.step (poll 4294967295 true false true)) = true
    ∧ Instr.fitsWord small (.step (poll 65535 true false true)) = true
    ∧ Instr.fitsWord small (.read 4294967295) = true ∧ Instr.fitsWord small .reset = true
    ∧ Instr.fitsWord small (.reserved4to7 3 0) = true ∧ Instr.fitsWord small (.reserved8toF 0 5) = true := by decide

theorem witness_EncodeOfDecodeIsTheWord : decode small 0x0000FFFF00#40
    = .ok (.step { trig := false, clk := false, data := false, atn := false, now := 65535 }) := rfl

theorem witness_ScriptLineWords : Params.defaults.timeW = 32 ∧ 4294967295 < 2 ^ 32 := by decide

/-- Each of R60's three cases, at a boundary bit. -/
theorem witness_MalformedWordsAreRefused :
    (issuing smallReset 0x0000000081#40).ops = .word 0x0000000081#40 0 :: []
    ∧ (0x0000000081#40).extractLsb' 0 4 = 1 ∧ (0x0000000081#40).extractLsb' 4 4 ≠ 0
    ∧ (0x8000000003#40).extractLsb' 0 4 = 3 ∧ (0x8000000003#40).extractLsb' 4 36 ≠ 0
    ∧ (0x0001000000#40).extractLsb' 0 4 = 0 ∧ 8 + small.timeW ≤ 24 ∧ (0x0001000000#40).getLsbD 24 = true
    ∧ (0x8000000000#40).getLsbD 39 = true := by decide

/-- The least and the greatest reserved op. -/
theorem witness_ReservedWordsAreRefused :
    (issuing smallReset 0x0000000004#40).ops = .word 0x0000000004#40 0 :: []
    ∧ 4 ≤ ((0x0000000004#40).extractLsb' 0 4).toNat ∧ 4 ≤ ((0x000000000F#40).extractLsb' 0 4).toNat := by decide

theorem witness_RuleCodesAgree : Code.legal 0b101 = true ∧ Code.legal 0b110 = false ∧ Code.legal 0b111 = false := by decide

theorem witness_InternalCodesAgree : decodeInternal 0b10 0 7 = some (.drain 7)
    ∧ ({ smallReset with ops := [.record (.drain 7) 0] } : State).ops = .record (.drain 7) 0 :: []
    ∧ Instr.isPortOp (.drain 7) = false := by decide

theorem witness_ElapsedIsTheModularDifference :
    0 < small.timeMod ∧ 65535 < small.timeMod ∧ 1 < small.timeMod ∧ (65535 + 1) % small.timeMod = 0 := by decide

/-- One state for each of the three ways time is refused, the last at the first gap that is too long. -/
theorem witness_BrokenTimeIsRefused :
    (stateOf (rxIn 0b000) 9).clock % Params.defaults.timeMod ≠ 8
    ∧ ((stateOf (rxIn 0b000) 8).clock % Params.defaults.timeMod = 8 ∧ 8 < 9)
    ∧ Params.defaults.timeMod ≤ 4294957216 - 0 + Params.defaults.timeoutUs + Params.defaults.eoiPulseUs
    ∧ 4294957216 % Params.defaults.timeMod = 4294957216 := by decide

theorem witness_StepRunsTheRuleOfItsState : (atBitSeven 1960).timeMeets 1960 := meets (by decide)

theorem witness_StepCompletesInEveryLegalState :
    (atBitSeven 1960).timeMeets 1960 ∧ Code.legal (atBitSeven 1960).rx.st = true
    ∧ (atBitSeven 1960).fs.head < (atBitSeven 1960).cfg.n :=
  ⟨meets (by decide), by decide, by decide⟩

theorem witness_IllegalStateIsRefusedAndUnreachable :
    ((stateOf (rxIn 0b111) 0).rx.st = 0b110 ∨ (stateOf (rxIn 0b111) 0).rx.st = 0b111)
    ∧ (stateOf (rxIn 0b111) 0).timeMeets 0
    ∧ Code.legal three.rx.st = true ∧ ∃ t, exec (.read 2) three = .next t :=
  ⟨by decide, meets (by decide), by decide, _, rfl⟩

theorem witness_IdleWaitsForATrigger :
    (stateOf (rxIn 0b000) 5).rx.st = Code.idle ∧ (stateOf (rxIn 0b000) 5).timeMeets 5 :=
  ⟨by decide, meets (by decide)⟩

theorem witness_TriggerInIdleStartsASession :
    (stateOf (rxIn 0b000) 1000).rx.st = Code.idle ∧ (trigger 1000).trig = true
    ∧ (stateOf (rxIn 0b000) 1000).timeMeets 1000 := ⟨by decide, by decide, meets (by decide)⟩

theorem witness_ClockLowEndsTheStartWait :
    (stateOf (rxIn 0b001) 20000).rx.st = Code.waitStart ∧ (poll 20000 false true true).clk = false
    ∧ (stateOf (rxIn 0b001) 20000).timeMeets 20000 := ⟨by decide, by decide, meets (by decide)⟩

/-- One state for each of the three cases, each at its threshold: `e` is 200, 10001 with `eoi = 1`, and 199. -/
theorem witness_ClockHighContinuesTheStartWait :
    ((stateOf (rxIn 0b001) 200).rx.st = Code.waitStart ∧ (poll 200 true true true).clk = true
      ∧ (stateOf (rxIn 0b001) 200).timeMeets 200 ∧ Params.defaults.eoiUs ≤ elapsed Params.defaults 200 0)
    ∧ ((stateOf { rxIn 0b001 with eoi := true } 10001).timeMeets 10001
      ∧ Params.defaults.timeoutUs < elapsed Params.defaults 10001 0)
    ∧ ((stateOf (rxIn 0b001) 199).timeMeets 199 ∧ ¬ Params.defaults.eoiUs ≤ elapsed Params.defaults 199 0) :=
  ⟨⟨by decide, by decide, meets (by decide), by decide⟩, ⟨meets (by decide), by decide⟩, meets (by decide), by decide⟩

theorem witness_PulseRunsUnchanged :
    (stateOf (rxIn 0b010) 79).rx.st = Code.eoiAck ∧ (stateOf (rxIn 0b010) 79).timeMeets 79
    ∧ elapsed Params.defaults 79 0 < Params.defaults.eoiPulseUs := ⟨by decide, meets (by decide), by decide⟩

/-- With the abort flag and without it. -/
theorem witness_PulseEndReleasesData :
    (stateOf { rxIn 0b010 with abort := true } 80).rx.st = Code.eoiAck
    ∧ (stateOf { rxIn 0b010 with abort := true } 80).timeMeets 80 ∧ (stateOf (rxIn 0b010) 80).timeMeets 80
    ∧ Params.defaults.eoiPulseUs ≤ elapsed Params.defaults 80 0 :=
  ⟨by decide, meets (by decide), meets (by decide), by decide⟩

/-- With CLOCK at 1; past the timeout; and at the timeout, which is not past it. -/
theorem witness_BitReadyWaitsForClockHigh :
    (stateOf (rxIn 0b011) 10001).rx.st = Code.bitReady ∧ (stateOf (rxIn 0b011) 10001).timeMeets 10001
    ∧ (stateOf (rxIn 0b011) 10000).timeMeets 10000 ∧ Params.defaults.timeoutUs < elapsed Params.defaults 10001 0
    ∧ ¬ Params.defaults.timeoutUs < elapsed Params.defaults 10000 0 :=
  ⟨by decide, meets (by decide), meets (by decide), by decide, by decide⟩

theorem witness_BitSampleSetsItsBit :
    (stateOf { rxIn 0b100 with idx := 6, acc := 0x01 } 1801).rx.st = Code.bitSample
    ∧ (stateOf { rxIn 0b100 with idx := 6, acc := 0x01 } 1801).timeMeets 1801 := ⟨by decide, meets (by decide)⟩

/-- Bit 6 and bit 7: where the two clauses meet. -/
theorem witness_ClockLowEndsTheReleaseWait :
    ((stateOf { rxIn 0b101 with idx := 6 } 1960).rx.st = Code.bitRelease ∧ (poll 1960 false true true).clk = false
      ∧ (stateOf { rxIn 0b101 with idx := 6 } 1960).timeMeets 1960
      ∧ (stateOf { rxIn 0b101 with idx := 6 } 1960).rx.idx.toNat < 7)
    ∧ ((atBitSeven 1960).rx.st = Code.bitRelease ∧ (atBitSeven 1960).timeMeets 1960 ∧ (atBitSeven 1960).rx.idx = 7
      ∧ (atBitSeven 1960).fs.head < (atBitSeven 1960).cfg.n) :=
  ⟨⟨by decide, by decide, meets (by decide), by decide⟩, by decide, meets (by decide), by decide, by decide⟩

/-- Bit 6 past the timeout, bit 7 at the timeout, and bit 7 past it. -/
theorem witness_ClockHighContinuesTheReleaseWait :
    ((stateOf { rxIn 0b101 with idx := 6 } 10001).rx.st = Code.bitRelease ∧ (poll 10001 true true true).clk = true
      ∧ (stateOf { rxIn 0b101 with idx := 6 } 10001).timeMeets 10001
      ∧ (stateOf { rxIn 0b101 with idx := 6 } 10001).rx.idx.toNat < 7)
    ∧ ((atBitSeven 11901).timeMeets 11901 ∧ elapsed Params.defaults 11901 1901 ≤ Params.defaults.timeoutUs)
    ∧ ((atBitSeven 11902).timeMeets 11902 ∧ (atBitSeven 11902).rx.idx = 7
      ∧ Params.defaults.timeoutUs < elapsed Params.defaults 11902 1901
      ∧ (atBitSeven 11902).fs.head < (atBitSeven 11902).cfg.n) :=
  ⟨⟨by decide, by decide, meets (by decide), by decide⟩, ⟨meets (by decide), by decide⟩, meets (by decide), by decide,
    by decide, by decide⟩

theorem witness_CompletionPushesTheAssembledFrame :
    ∃ t, exec (.step (poll 11902 true false true)) (atBitSeven 11902) = .next t ∧ (t.ev.kind == .frame) = true :=
  answers (fun t => t.ev.kind == .frame) (by decide)

theorem witness_TriggerOutsideIdleIsIgnored : (stateOf (rxIn 0b001) 100).rx.st ≠ Code.idle := by decide

theorem witness_AttentionMattersOnlyAtCompletion :
    (∃ t, exec (.step (poll 200 true true true)) (stateOf (rxIn 0b001) 200) = .next t
      ∧ decide (t.ev.kind ≠ .frame) = true)
    ∧ ∃ t, exec (.step (poll 1960 false true true)) (atBitSeven 1960) = .next t ∧ (t.ev.kind == .frame) = true :=
  ⟨answers _ (by decide), answers (fun t => t.ev.kind == .frame) (by decide)⟩

/-- A next state for each kind of event. -/
theorem witness_EventsComeFromTheirCauses :
    (∃ t, exec (.step (poll 0 true true true)) (stateOf (rxIn 0b001) 0) = .next t ∧ (t.ev.kind == .none) = true)
    ∧ (∃ t, exec (.step (poll 10001 true true true)) (stateOf { rxIn 0b001 with eoi := true } 10001) = .next t
        ∧ (t.ev.kind == .startTimeout) = true)
    ∧ (∃ t, exec (.step (poll 10001 false true true)) (stateOf (rxIn 0b011) 10001) = .next t
        ∧ (t.ev.kind == .bitTimeout) = true)
    ∧ ∃ t, exec (.step (poll 1960 false true true)) (atBitSeven 1960) = .next t ∧ (t.ev.kind == .frame) = true :=
  ⟨answers (fun t => t.ev.kind == .none) (by decide), answers (fun t => t.ev.kind == .startTimeout) (by decide),
    answers (fun t => t.ev.kind == .bitTimeout) (by decide), answers (fun t => t.ev.kind == .frame) (by decide)⟩

/-- A pulse that began at 10001 with the timeout past (as in V7, with `t_anchor = 0`), at its end. -/
def afterV7 : State :=
  stateOf { rxIn 0b010 with eoi := true, abort := true, dataPull := true, tPulse := 10001 } 10081

/-- A next state for each clause: past the timeout in WAIT_START, BIT_READY and BIT_RELEASE, with CLOCK at the level
that wins, and the STEP that ends an aborting pulse. -/
theorem witness_SimultaneousConditionsResolve :
    (∃ t, exec (.step (poll 10001 false true true)) (stateOf (rxIn 0b001) 10001) = .next t)
    ∧ (∃ t, exec (.step (poll 10001 true true true)) (stateOf (rxIn 0b011) 10001) = .next t)
    ∧ (∃ t, exec (.step (poll 10001 false true true)) (stateOf (rxIn 0b101) 10001) = .next t)
    ∧ (∃ t, exec (.step (poll 10001 true true true)) (stateOf (rxIn 0b001) 10001) = .next t ∧
        (t.rx == afterV7.rx && t.cfg == afterV7.cfg) = true)
    ∧ (∃ u, exec (.step (poll 10081 true true true)) afterV7 = .next u ∧
        decide (afterV7.cfg.eoiPulseUs ≤ afterV7.sincePulse 10081) = true)
    ∧ (∃ t, exec (.step (poll 11902 true true true)) (atBitSeven 11902) = .next t) :=
  ⟨(answers (fun _ => true) (by decide)).imp fun _ h => h.1, (answers (fun _ => true) (by decide)).imp fun _ h => h.1,
    (answers (fun _ => true) (by decide)).imp fun _ h => h.1,
    answers (fun t => t.rx == afterV7.rx && t.cfg == afterV7.cfg) (by decide),
    answers (fun _ => decide (afterV7.cfg.eoiPulseUs ≤ afterV7.sincePulse 10081)) (by decide),
    (answers (fun _ => true) (by decide)).imp fun _ h => h.1⟩

theorem witness_AbortLeavesNoTraceInTheStore :
    ∃ t, exec (.step (poll 10001 false true true)) { stateOf (rxIn 0b011) 10001 with fs := three.fs } = .next t
      ∧ (t.ev.kind == .bitTimeout) = true := answers _ (by decide)

/-- `STEP t=1960 clk=0 atn=1` at bit 7 ends the session. -/
theorem witness_OnlyItsOwnStepOrResetEndsASession :
    (atBitSeven 1960).rx.st ≠ Code.idle
    ∧ ∃ t, step (issuing (atBitSeven 1960) 0x000007A880#40) = .next t ∧ (t.rx.st == Code.idle) = true :=
  ⟨by decide, answers _ (by decide)⟩

theorem witness_PushWritesOneSlot : three.fs.head < three.cfg.n
    ∧ (storeAt 1023 0).fs.head < (storeAt 1023 0).cfg.n := by decide

/-- `head = N`, alone and in both completing STEPs: CLOCK at 0, and CLOCK at 1 at the first time past the timeout. -/
theorem witness_PushOutsideTheStoreFaults :
    Params.defaults.n ≤ ({ atBitSeven 1960 with fs := (storeAt 1024 0).fs } : State).fs.head
    ∧ ({ atBitSeven 1960 with fs := (storeAt 1024 0).fs } : State).timeMeets 1960
    ∧ (atBitSeven 1960).rx.st = Code.bitRelease ∧ (atBitSeven 1960).rx.idx = 7
    ∧ (poll 1960 false true true).clk = false
    ∧ ({ atBitSeven 11902 with fs := (storeAt 1024 0).fs } : State).timeMeets 11902
    ∧ Params.defaults.timeoutUs < (atBitSeven 11902).sinceAnchor 11902 :=
  ⟨by decide, meets (by decide), by decide, by decide, by decide, meets (by decide), by decide⟩

theorem witness_AvailableStaysBelowN : (storeAt 1022 1023).fs.head < Params.defaults.n
    ∧ (storeAt 1022 1023).fs.tail < Params.defaults.n ∧ (storeAt 1022 1023).available = 1023 := by decide

/-- A store one PUSH from full: the last clause's premises hold of it. -/
theorem witness_OverwriteBehaviour : (storeAt 1022 1023).fs.head < (storeAt 1022 1023).cfg.n
    ∧ (storeAt 1022 1023).fs.tail < (storeAt 1022 1023).cfg.n
    ∧ (storeAt 1022 1023).available + 1 = (storeAt 1022 1023).cfg.n ∧ 2 ≤ (storeAt 1022 1023).cfg.n := by decide

/-- A run that pushes a frame and drains four. -/
theorem witness_FirstInFirstOut : three.fs.head < three.cfg.n ∧ three.fs.tail < three.cfg.n
    ∧ ∃ t, StoreRun three [0x0344] [0x0041, 0x0142, 0x0243, 0x0344] t := by
  obtain ⟨t, h, _⟩ := answers (a := exec (.push 0x0344) three) (fun _ => true) (by decide)
  refine ⟨by decide, by decide, _, .drain (ps := [] ++ [0x0344]) (ds := []) 4 _ (.push 0x0344 .nil (by decide) h) rfl ?_⟩
  have ht : t = three.pushed 0x0344 := (push_next_iff.1 (show push 0x0344 three = .next t from h)).2
  subst ht
  decide

theorem witness_OccupancyAccounting : (storeAt 9 9).fs.head < (storeAt 9 9).cfg.n
    ∧ (storeAt 9 9).fs.head = (storeAt 9 9).fs.tail ∧ (List.replicate 5 (0x0001 : Frame)).length < (storeAt 9 9).cfg.n := by
  decide

/-- Byte positions at both ends of the result, and an odd count. -/
theorem witness_ReadRoundsClampsAndDrains : 2 * 0 < min (7 - 7 % 2) (2 * three.available)
    ∧ 2 * 2 < min (7 - 7 % 2) (2 * three.available) := by decide

theorem witness_ReadOfAnEmptyStoreReturnsNothing : (storeAt 17 17).fs.tail < (storeAt 17 17).cfg.n
    ∧ (storeAt 17 17).available = 0 := by decide

/-- Three frames in slots 1 to 3, with another slot 0 and another receiver. -/
def threeMoved : State :=
  { stateOf (rxIn 0b011) 77 with
    fs := { FsState.reset 5 with
            buf := [(0, 9), (1, 1), (2, 0x41), (3, 0x00), (4, 0x42), (5, 0x01), (6, 0x43), (7, 0x02)]
            head := 4, tail := 1 } }

theorem witness_ReaderSeesOnlyUnreadFrames : three.cfg = threeMoved.cfg ∧ three.fs.inRange three.cfg
    ∧ threeMoved.fs.inRange threeMoved.cfg ∧ three.unread = threeMoved.unread := by
  unfold FsState.inRange
  decide

/-- Each clause's premise: a completing STEP changes the buffer, a READ changes `tail`. -/
theorem witness_OnlyItsOwnerWritesTheFrameStore :
    (∃ t, exec (.step (poll 1960 false true true)) (atBitSeven 1960) = .next t
      ∧ (t.fs.head != (atBitSeven 1960).fs.head) = true)
    ∧ (∃ t, exec (.read 2) three = .next t ∧ (t.fs.tail != three.fs.tail) = true)
    ∧ ∃ t, exec .reset three = .next t :=
  ⟨answers _ (by decide), answers _ (by decide), _, rfl⟩

theorem witness_NoOperationWritesTheParameters : ∃ t, exec (.drain 2) three = .next t := ⟨_, rfl⟩

/-- A word, and a record, at the front of what is issued. -/
theorem witness_StepRunsTheIssuedOperation :
    (issuing three 0x0000000701#40).ops = .word 0x0000000701#40 0 :: []
    ∧ decode three.cfg 0x0000000701#40 = .ok (.read 7)
    ∧ ({ three with ops := [.record (.read 7) 3] } : State).ops = .record (.read 7) 3 :: []
    ∧ Instr.isPortOp (.read 7) = true := ⟨rfl, rfl, rfl, rfl⟩

theorem witness_NothingIssuedNothingChanges : three.ops = [] := rfl

/-- A session at bit 7, three unread frames behind it, keeps the invariant's terms. -/
theorem inv_atBitSeven : ({ atBitSeven 1960 with fs := three.fs } : State).Inv := by
  refine ⟨?_, ?_, ?_, ?_, ?_⟩
  · unfold RxState.inRange; decide
  · unfold FsState.inRange; decide
  · unfold RxState.consistent; decide
  · unfold FsState.framesOk; decide
  · unfold State.unreadWritten FsState.written; decide

/-- `STEP t=1960 clk=0 atn=1` completes that session. -/
theorem witness_StepKeepsTheInvariant :
    ({ atBitSeven 1960 with fs := three.fs, ops := [.word 0x000007A880#40 1960] } : State).Inv
    ∧ ∃ t, step { atBitSeven 1960 with fs := three.fs, ops := [.word 0x000007A880#40 1960] } = .next t :=
  ⟨inv_atBitSeven, (answers (fun _ => true) (by decide)).imp fun _ h => h.1⟩

theorem witness_ResetContentsAreNeverObservable : ({ atBitSeven 1960 with fs := three.fs } : State).Inv := inv_atBitSeven

/-- Three unread frames and `ops` issued, with 33 bits of time. -/
def wideIssuing (ops : List Issue) : State :=
  { three with cfg := { Params.defaults with timeW := 33, timeW_ge := by decide }, ops := ops }

theorem inv_wideIssuing (ops : List Issue) : (wideIssuing ops).Inv := by
  refine ⟨?_, ?_, ?_, ?_, ?_⟩
  · show RxState.inRange (wideIssuing []).cfg RxState.reset
    unfold RxState.inRange; decide
  · show FsState.inRange (wideIssuing []).cfg three.fs
    unfold FsState.inRange; decide
  · show RxState.consistent RxState.reset
    unfold RxState.consistent; decide
  · show FsState.framesOk three.fs
    unfold FsState.framesOk; decide
  · show State.unreadWritten (wideIssuing [])
    unfold State.unreadWritten FsState.written; decide

/-- Each arm: nothing issued, a malformed word, a word of a time too wide, a record no agent issues, an operation. -/
theorem witness_OnlyNamedRefusalsStopTheMachine :
    (∀ ops, (wideIssuing ops).Inv)
    ∧ fetch (wideIssuing []) = .idle
    ∧ fetch (wideIssuing [.word 0x0000000011#40 0]) = .stop (.malformedWord .mustBeZero)
    ∧ fetch (wideIssuing [.word 0x0000000000#40 0]) = .stop (.malformedWord .wideTime)
    ∧ fetch (wideIssuing [.record .available 0]) = .stop .notIssuable
    ∧ fetch (wideIssuing [.word 0x0000000003#40 0]) = .run .reset (wideIssuing []) :=
  ⟨inv_wideIssuing, by decide, by decide, by decide, by decide, by decide⟩

/-- A completing STEP from a state in which DATA is released. -/
theorem witness_DataDriveInvariant : DataPullExact (atBitSeven 1960) false
    ∧ ∃ t, step (issuing (atBitSeven 1960) 0x000007A880#40) = .next t := by
  refine ⟨?_, (answers (fun _ => true) (by decide)).imp fun _ h => h.1⟩
  unfold DataPullExact
  decide

/-- Bit 7 seen, the eight levels of `0x41`, and the STEP that completes. -/
theorem witness_BitOrdering :
    LevelsSeen (issuing (atBitSeven 1960) 0x000007A880#40) [true, false, false, false, false, false, true, false]
    ∧ (issuing (atBitSeven 1960) 0x000007A880#40).nextStepIn.isSome = true
    ∧ ∃ t, step (issuing (atBitSeven 1960) 0x000007A880#40) = .next t ∧ (t.ev.kind == .frame) = true := by
  refine ⟨fun _ => ⟨fun j => ?_, by decide⟩, by decide, answers _ (by decide)⟩
  by_cases hj : j < 8
  · have h : ∀ k : Fin 8, (issuing (atBitSeven 1960) 0x000007A880#40).rx.acc.getLsbD k
        = [true, false, false, false, false, false, true, false].getD k false := by decide
    exact h ⟨j, hj⟩
  · rw [BitVec.getLsbD_of_ge _ _ (by omega), List.getD_eq_default _ _ (by simp; omega)]

/-- A session that began at 0, polled every 200 at most, at its first poll of the start wait. -/
def polling : State :=
  { stateOf (rxIn 0b001) 200 with lastStep := some 0, ops := [.record (.step (poll 200 true false true)) 200] }

theorem polling_times : SessionTimes 200 polling { start := 0, anchor := 0, pulse := 0 } := by
  intro _
  refine ⟨0, rfl, by decide, by decide, by decide, ?_, ?_, ?_, ?_, ?_⟩ <;> decide

theorem polling_gap {t : State} (h : step polling = .next t) : GapWithin 200 polling t := by
  intro l _ hl
  have hl : 0 = l := Option.some.inj hl
  have hk : ((out (step polling)).map fun u => u.clock) = some 200 := by decide
  rw [h] at hk
  have ht : t.clock = 200 := Option.some.inj hk
  omega

theorem witness_SessionLengthIsBounded :
    SessionTimes 200 polling { start := 0, anchor := 0, pulse := 0 }
    ∧ (∃ t, step polling = .next t ∧ GapWithin 200 polling t)
    ∧ polling.cfg.timeoutUs + polling.cfg.eoiPulseUs + 2 * 200 < polling.cfg.timeMod
    ∧ polling.nextStepIn.isSome = true ∧ polling.rx.st ≠ Code.idle :=
  ⟨polling_times, (answers (fun _ => true) (by decide)).imp fun _ h => ⟨h.1, polling_gap h.1⟩, by decide, by decide,
    by decide⟩

theorem witness_ElapsedIsTrueTimeUnderShortGaps :
    SessionTimes 200 polling { start := 0, anchor := 0, pulse := 0 }
    ∧ polling.nextStepIn = some (poll 200 true false true)
    ∧ (∃ t, step polling = .next t ∧ GapWithin 200 polling t) ∧ polling.rx.st = Code.waitStart :=
  ⟨polling_times, by decide, (answers (fun _ => true) (by decide)).imp fun _ h => ⟨h.1, polling_gap h.1⟩, by decide⟩

/-- A trigger and a first poll of the start wait, issued at reset. -/
def twoSteps : State :=
  { State.reset with ops := [.record (.step (trigger 0)) 0, .record (.step (poll 50 true false true)) 50] }

theorem witness_ElapsedIsTrueTimeWheneverCompared :
    ∃ s t g, Reached s g ∧ s.nextStepIn = some (poll 50 true false true) ∧ step s = .next t
      ∧ s.rx.st = Code.waitStart ∧ (poll 50 true false true).clk = true := by
  obtain ⟨s, h, hs⟩ := answers (a := step twoSteps)
    (fun s => (s.nextStepIn == some (poll 50 true false true)) && (s.rx.st == Code.waitStart) && (out (step s)).isSome)
    (by decide)
  simp only [Bool.and_eq_true, beq_iff_eq] at hs
  obtain ⟨t, ht, _⟩ := answers (a := step s) (fun _ => true) (by
    cases ho : out (step s) with
    | none => simp [ho] at hs
    | some u => rfl)
  exact ⟨s, t, _, .next (.start twoSteps.ops { start := 0, anchor := 0, pulse := 0 }) h, hs.1.1, ht, hs.1.2, rfl⟩

end Sys2Proof.Tests
end

