-- ==== Sys2Proof/Proofs/Elapsed.lean ====
section
/-! PROOF. Modular time (00_scope.md R8): `elapsed c now x` is the solution `e` of `x + e ≡ now` modulo `2^TIME_W`, for
instants of any size, and the only one below `2^TIME_W`. -/

namespace Sys2Proof.Machine

theorem timeMod_pos (c : Params) : 0 < c.timeMod := Nat.two_pow_pos c.timeW

theorem elapsed_lt_timeMod (c : Params) (now x : Nat) : elapsed c now x < c.timeMod :=
  Nat.mod_lt _ (timeMod_pos c)

theorem add_elapsed_modEq (c : Params) (now x : Nat) : x + elapsed c now x ≡ now [MOD c.timeMod] := by
  have hx : x % c.timeMod ≤ now + c.timeMod := (Nat.mod_lt x (timeMod_pos c)).le.trans (Nat.le_add_left _ _)
  calc x + elapsed c now x
    _ ≡ x % c.timeMod + (now + c.timeMod - x % c.timeMod) [MOD c.timeMod] :=
        (Nat.mod_modEq x _).symm.add (Nat.mod_modEq _ _)
    _ = now + c.timeMod := Nat.add_sub_of_le hx
    _ ≡ now [MOD c.timeMod] := Nat.add_modEq_right

/-- Two solutions agree modulo `2^TIME_W` once the recorded instant is cancelled, and below `2^TIME_W` they are equal. -/
theorem eq_elapsed_of_add_modEq {c : Params} {now x e : Nat} (he : e < c.timeMod)
    (h : x + e ≡ now [MOD c.timeMod]) : e = elapsed c now x := by
  have hadd : x + e ≡ x + elapsed c now x [MOD c.timeMod] := h.trans (add_elapsed_modEq c now x).symm
  exact (Nat.ModEq.add_left_cancel' x hadd).eq_of_lt_of_lt he (elapsed_lt_timeMod c now x)

/-- Settles O11: range, equation and uniqueness above, where `now` is its own residue. -/
theorem elapsedIsTheModularDifference : Obligations.ElapsedIsTheModularDifference := by
  intro c now x hnow _
  refine ⟨elapsed_lt_timeMod c now x, ?_, fun e he h => ?_⟩
  · exact Nat.mod_eq_of_modEq (add_elapsed_modEq c now x) hnow
  · exact eq_elapsed_of_add_modEq he (h.trans (Nat.mod_eq_of_lt hnow).symm)

end Sys2Proof.Machine
end

section
/-! PROOF. The outputs and the environment's side: what `busy` shows, which STEPs R28 refuses, and what no operation
writes (10_state.md R17, R26, R28). -/

namespace Sys2Proof.Machine

theorem State.busy_eq_true_iff (s : State) : s.busy = true ↔ s.rx.st ≠ Code.idle := bne_iff_ne

/-- Settles O60: the outputs are the registers and `busy`. -/
theorem busyIsExactlyOutsideIdle : Obligations.BusyIsExactlyOutsideIdle := fun s =>
  ⟨s.busy_eq_true_iff, rfl, s.busy_eq_true_iff, rfl⟩

/-! ### The refusals of R28 -/

theorem execStep_refused_of_timeRefusal {inp : StepIn} {s : State} {r : Refusal}
    (h : s.timeRefusal inp.now = some r) : exec (.step inp) s = .refused r := by
  simp [exec, execStep, h]

theorem State.timeRefusal_of_mismatch {s : State} {now : Nat} (h : s.clock % s.cfg.timeMod ≠ now) :
    s.timeRefusal now = some .clockMismatch := by
  simp [State.timeRefusal, h]

theorem State.timeRefusal_of_backwards {s : State} {now l : Nat} (h : s.clock % s.cfg.timeMod = now)
    (hl : s.lastStep = some l) (hlt : s.clock < l) : s.timeRefusal now = some .timeBackwards := by
  simp [State.timeRefusal, h, hl, hlt]

theorem State.timeRefusal_of_gap {s : State} {now l : Nat} (h : s.clock % s.cfg.timeMod = now)
    (hl : s.lastStep = some l) (hle : l ≤ s.clock)
    (hgap : s.cfg.timeMod ≤ s.clock - l + s.cfg.timeoutUs + s.cfg.eoiPulseUs) :
    s.timeRefusal now = some .gapTooLong := by
  simp [State.timeRefusal, h, hl, Nat.not_lt.2 hle, hgap]

/-- Settles O12: each premise picks its branch of `timeRefusal`. -/
theorem brokenTimeIsRefused : Obligations.BrokenTimeIsRefused := fun _ _ =>
  ⟨fun h => execStep_refused_of_timeRefusal (State.timeRefusal_of_mismatch h), fun _ h hl =>
    ⟨fun hlt => execStep_refused_of_timeRefusal (State.timeRefusal_of_backwards h hl hlt), fun hle hgap =>
      execStep_refused_of_timeRefusal (State.timeRefusal_of_gap h hl hle hgap)⟩⟩

/-! ### What a rule of STEP leaves alone -/

/-- Whatever state `a` answers, it is as `s` outside the receiver, the event port and the frame store. -/
def KeepsOutside (s : State) (a : Answer) : Prop := ∀ t, a = .next t → SameOutside s t

theorem SameOutside.rxDone (s : State) (r : RxState) (e : Event) : SameOutside s (s.rxDone r e) :=
  ⟨rfl, rfl, rfl, rfl, rfl⟩

theorem SameOutside.pushed {s t : State} (h : SameOutside s t) (f : Frame) : SameOutside s (t.pushed f) := h

theorem KeepsOutside.next {s t : State} (h : SameOutside s t) : KeepsOutside s (.next t) := by
  rintro _ ⟨⟩
  exact h

theorem KeepsOutside.rxNext {s : State} {r : RxState} : KeepsOutside s (.next (s.rxNext r)) :=
  .next (.rxDone s r _)

theorem KeepsOutside.abort {s : State} {r : RxState} {k : EventKind} {i : BitVec 3} {p : BitVec 1} :
    KeepsOutside s (.next (s.abortSession r k i p)) :=
  .next (.rxDone s _ _)

theorem KeepsOutside.push {s t : State} (h : SameOutside s t) (f : Frame) : KeepsOutside s (push f t) := by
  intro u hu
  obtain ⟨-, rfl⟩ := push_next_iff.1 hu
  exact h.pushed f

theorem KeepsOutside.complete {atn : Bool} {s : State} : KeepsOutside s (complete atn s) :=
  .push (.rxDone s _ _) _

theorem KeepsOutside.ite {s : State} {c : Prop} [Decidable c] {a b : Answer} (ha : KeepsOutside s a)
    (hb : KeepsOutside s b) : KeepsOutside s (if c then a else b) := by
  split
  · exact ha
  · exact hb

theorem execStepWaitStartClk1_keepsOutside (now : Nat) (s : State) : KeepsOutside s (execStepWaitStartClk1 now s) :=
  .ite .rxNext (.ite .abort .rxNext)

theorem execStepEoiAckEnd_keepsOutside (s : State) : KeepsOutside s (execStepEoiAckEnd s) :=
  .ite .abort .rxNext

theorem execStepBitReady_keepsOutside (clk : Bool) (now : Nat) (s : State) :
    KeepsOutside s (execStepBitReady clk now s) :=
  .ite .rxNext (.ite .abort .rxNext)

theorem execStepBitReleaseClk0_keepsOutside (atn : Bool) (now : Nat) (s : State) :
    KeepsOutside s (execStepBitReleaseClk0 atn now s) :=
  .ite .rxNext .complete

theorem execStepBitReleaseClk1_keepsOutside (atn : Bool) (now : Nat) (s : State) :
    KeepsOutside s (execStepBitReleaseClk1 atn now s) :=
  .ite (.ite .abort .complete) .rxNext

/-- A STEP's rule writes only the receiver, the event port and the frame store. -/
theorem RuleOutcome.sameOutside {inp : StepIn} {s t : State} (h : RuleOutcome inp s t) : SameOutside s t := by
  cases h <;> exact ⟨rfl, rfl, rfl, rfl, rfl⟩

/-- The parameters, what is issued and the true time are as they were (10_state.md R26). -/
def SameEnvironment (s t : State) : Prop := t.cfg = s.cfg ∧ t.ops = s.ops ∧ t.clock = s.clock

theorem SameOutside.sameEnvironment {s t : State} (h : SameOutside s t) : SameEnvironment s t := by
  obtain ⟨hcfg, -, hclock, -, hops⟩ := h
  exact ⟨hcfg, hops, hclock⟩

/-- Settles O49, operation by operation: STEP, its rules and PUSH keep all that is outside the core, and READ, WRITE,
RESET, AVAILABLE and DRAIN write none of the three fields. -/
theorem noOperationWritesTheParameters : Obligations.NoOperationWritesTheParameters := by
  intro i s t h
  show SameEnvironment s t
  cases i with
  | step inp =>
    obtain ⟨-, hrun⟩ := execStep_next_iff.1 h
    exact (runRule_outcome hrun).sameOutside.sameEnvironment
  | read | write | reset | available | drain => cases h; exact ⟨rfl, rfl, rfl⟩
  | reserved4to7 | reserved8toF | stepIllegalState => cases h
  | push f => exact (KeepsOutside.push (t := s) ⟨rfl, rfl, rfl, rfl, rfl⟩ f t h).sameEnvironment
  | stepIdle | stepIdleStart | stepWaitStartClk0 | stepEoiAckRun | stepBitSample =>
    exact (KeepsOutside.rxNext t h).sameEnvironment
  | stepWaitStartClk1 now => exact (execStepWaitStartClk1_keepsOutside now s t h).sameEnvironment
  | stepEoiAckEnd => exact (execStepEoiAckEnd_keepsOutside s t h).sameEnvironment
  | stepBitReady clk now => exact (execStepBitReady_keepsOutside clk now s t h).sameEnvironment
  | stepBitReleaseClk0 atn now => exact (execStepBitReleaseClk0_keepsOutside atn now s t h).sameEnvironment
  | stepBitReleaseClk1 atn now => exact (execStepBitReleaseClk1_keepsOutside atn now s t h).sameEnvironment

end Sys2Proof.Machine
end

section
/-! PROOF. What the rule of a STEP can reach: `RuleOutcome` holds exactly of the states a rule answers. With it
ATTENTION's reach (10_state.md R22) and the owners of the frame store (10_state.md R25). -/

namespace Sys2Proof.Machine

/-! ### The rules of BIT_RELEASE by bit index -/

theorem execStepBitReleaseClk0_of_lt {atn : Bool} {now : Nat} {s : State} (hi : s.rx.idx < 7) :
    execStepBitReleaseClk0 atn now s
      = .next (s.rxNext { s.rx with idx := s.rx.idx + 1, tAnchor := now, st := Code.bitReady }) :=
  if_pos hi

theorem execStepBitReleaseClk0_of_seven {atn : Bool} {now : Nat} {s : State} (hi : s.rx.idx = 7) :
    execStepBitReleaseClk0 atn now s = complete atn s := by
  simp [execStepBitReleaseClk0, hi]

theorem execStepBitReleaseClk1_of_lt {atn : Bool} {now : Nat} {s : State} (ht : s.timedOut now = true)
    (hi : s.rx.idx < 7) :
    execStepBitReleaseClk1 atn now s = .next (s.abortSession s.rx .bitTimeout s.rx.idx 1) :=
  (if_pos ht).trans (if_pos hi)

theorem execStepBitReleaseClk1_of_seven {atn : Bool} {now : Nat} {s : State} (ht : s.timedOut now = true)
    (hi : s.rx.idx = 7) : execStepBitReleaseClk1 atn now s = complete atn s := by
  simp [execStepBitReleaseClk1, ht, hi]

/-! ### Every outcome is reached -/

/-- The converse of `runRule_outcome`: what a rule can do, it does where its conditions hold. -/
theorem RuleOutcome.runRule_eq {inp : StepIn} {s t : State} (h : RuleOutcome inp s t) : runRule inp s = .next t := by
  cases h with
  | waited h =>
    obtain ⟨hst, h⟩ | ⟨hst, hc, he, ht⟩ | ⟨hst, hp⟩ | ⟨hst, hc, ht⟩ | ⟨hst, hc, ht⟩ := h
    · simp [runRule, hst, h, execStepIdle]
    · simp [runRule, hst, hc, execStepWaitStartClk1, he, ht]
    · simp [runRule, hst, hp, execStepEoiAckRun]
    · simp [runRule, hst, hc, execStepBitReady, ht]
    · simp [runRule, hst, hc, execStepBitReleaseClk1, ht]
  | started hst hg => simp [runRule, hst, hg, execStepIdleStart]
  | went hst hc => simp [runRule, hst, hc, execStepWaitStartClk0]
  | pulseBegan hst hc he => simp [runRule, hst, hc, execStepWaitStartClk1, he]
  | startTimeout hst hc he ht => simp [runRule, hst, hc, execStepWaitStartClk1, he, ht]
  | pulseAborted hst hp ha => simp [runRule, hst, hp, execStepEoiAckEnd, ha]
  | pulseEnded hst hp ha => simp [runRule, hst, hp, execStepEoiAckEnd, ha]
  | ready hst hc => simp [runRule, hst, hc, execStepBitReady]
  | readyTimeout hst hc ht => simp [runRule, hst, hc, execStepBitReady, ht]
  | sample hst => simp [runRule, hst, execStepBitSample]
  | nextBit hst hc hi => simp [runRule, hst, hc, execStepBitReleaseClk0_of_lt hi]
  | releaseTimeout hst hc ht hi => simp [runRule, hst, hc, execStepBitReleaseClk1_of_lt ht hi]
  | completed hst hi hend hh =>
    cases hc : inp.clk with
    | false => simp [runRule, hst, hc, execStepBitReleaseClk0_of_seven hi, complete_of_lt hh]
    | true =>
      have ht : s.timedOut inp.now = true := hend.resolve_left (by simp [hc])
      simp [runRule, hst, hc, execStepBitReleaseClk1_of_seven ht hi, complete_of_lt hh]

theorem runRule_next_iff {inp : StepIn} {s t : State} : runRule inp s = .next t ↔ RuleOutcome inp s t :=
  ⟨runRule_outcome, RuleOutcome.runRule_eq⟩

/-- A STEP answers exactly what a rule can do, where its time meets R28. -/
theorem execStep_next_iff_outcome {inp : StepIn} {s t : State} :
    exec (.step inp) s = .next t ↔ s.timeMeets inp.now ∧ RuleOutcome inp s.stepped t := by
  rw [execStep_next_iff, runRule_next_iff]

/-! ### ATTENTION -/

/-- A rule that emits no FRAME reads no ATTENTION. -/
theorem RuleOutcome.with_atn {inp : StepIn} {s t : State} (h : RuleOutcome inp s t) (hev : t.ev.kind ≠ .frame)
    (atn : Bool) : RuleOutcome { inp with atn := atn } s t := by
  cases h with
  | waited h => exact .waited h
  | started hst hg => exact .started (inp := { inp with atn := atn }) hst hg
  | went hst hc => exact .went (inp := { inp with atn := atn }) hst hc
  | pulseBegan hst hc he => exact .pulseBegan (inp := { inp with atn := atn }) hst hc he
  | startTimeout hst hc he ht => exact .startTimeout hst hc he ht
  | pulseAborted hst hp ha => exact .pulseAborted hst hp ha
  | pulseEnded hst hp ha => exact .pulseEnded hst hp ha
  | ready hst hc => exact .ready hst hc
  | readyTimeout hst hc ht => exact .readyTimeout hst hc ht
  | sample hst => exact .sample (inp := { inp with atn := atn }) hst
  | nextBit hst hc hi => exact .nextBit (inp := { inp with atn := atn }) hst hc hi
  | releaseTimeout hst hc ht hi => exact .releaseTimeout hst hc ht hi
  | completed => exact absurd rfl hev

/-- The one rule that emits FRAME is the completion, which it does with either ATTENTION level. -/
theorem RuleOutcome.of_frame {inp : StepIn} {s t : State} (h : RuleOutcome inp s t) (hev : t.ev.kind = .frame) :
    t = (s.completing inp.atn).pushed (s.frameOf inp.atn) ∧
      ∀ atn, RuleOutcome { inp with atn := atn } s ((s.completing atn).pushed (s.frameOf atn)) := by
  cases h with
  | completed hst hi hend hh => exact ⟨rfl, fun atn => .completed (inp := { inp with atn := atn }) hst hi hend hh⟩
  | _ => cases hev

/-- Settles O28: outside a completion no rule reads ATTENTION, and the completion reads it into frame bit 9 alone. -/
theorem attentionMattersOnlyAtCompletion : Obligations.AttentionMattersOnlyAtCompletion := by
  intro s t inp h
  obtain ⟨htime, hrule⟩ := execStep_next_iff_outcome.1 h
  refine ⟨fun hev atn => execStep_next_iff_outcome.2 ⟨htime, hrule.with_atn hev atn⟩, fun hev => ?_⟩
  obtain ⟨rfl, hrerun⟩ := hrule.of_frame hev
  refine ⟨?_, fun atn => ⟨_, execStep_next_iff_outcome.2 ⟨htime, hrerun atn⟩, rfl, fun j hj => ?_⟩⟩
  · exact frameWord_getLsbD _ _ _ 9
  · simp [State.frameOf, frameWord_getLsbD, hj]

/-! ### Who writes the frame store -/

theorem RuleOutcome.fs_eq_of_not_frame {inp : StepIn} {s t : State} (h : RuleOutcome inp s t)
    (hev : t.ev.kind ≠ .frame) : t.fs = s.fs := by
  cases h with
  | completed => exact absurd rfl hev
  | _ => rfl

/-- The receiver, which is the Writer, writes neither `tail` nor the store's epoch. -/
theorem RuleOutcome.keeps_tail {inp : StepIn} {s t : State} (h : RuleOutcome inp s t) :
    t.fs.tail = s.fs.tail ∧ t.fs.epoch = s.fs.epoch := by
  cases h <;> exact ⟨rfl, rfl⟩

/-- Settles O48, port operation by port operation. -/
theorem onlyItsOwnerWritesTheFrameStore : Obligations.OnlyItsOwnerWritesTheFrameStore := by
  intro i s t hport h
  cases i with
  | step inp =>
    obtain ⟨-, hrule⟩ := execStep_next_iff_outcome.1 h
    obtain ⟨htail, hepoch⟩ := hrule.keeps_tail
    refine ⟨nofun, fun _ => ⟨hepoch, fun hchange => ⟨inp, rfl, ?_⟩, fun hne => absurd htail hne⟩⟩
    by_contra hev
    have hfs : t.fs = s.fs := hrule.fs_eq_of_not_frame hev
    simp [hfs] at hchange
  | read n =>
    cases h
    exact ⟨nofun, fun _ => ⟨rfl, fun hchange => by simp at hchange, fun _ => ⟨n, rfl⟩⟩⟩
  | write n =>
    cases h
    exact ⟨nofun, fun _ => ⟨rfl, fun hchange => by simp at hchange, fun hne => absurd rfl hne⟩⟩
  | reset =>
    cases h
    exact ⟨fun _ => ⟨rfl, rfl⟩, fun hne => absurd rfl hne⟩
  | reserved4to7 | reserved8toF => cases h
  | _ => cases hport

end Sys2Proof.Machine
end

section
/-! PROOF. The frame store as a queue: a DRAIN takes from the front of the unread frames, so the Reader sees nothing
but them (10_state.md R27, 41_ring_buffer.md R91). -/

namespace Sys2Proof.Machine

theorem FsState.inRange.head_lt {c : Params} {f : FsState} (h : f.inRange c) : f.head < c.n := by
  obtain ⟨hhead, -, -, -⟩ := h
  exact hhead

theorem FsState.inRange.tail_lt {c : Params} {f : FsState} (h : f.inRange c) : f.tail < c.n := by
  obtain ⟨-, htail, -, -⟩ := h
  exact htail

theorem State.available_lt (s : State) : s.available < s.cfg.n := Nat.mod_lt _ s.cfg.n_pos

/-- The unread slots end at `head`. -/
theorem State.tail_add_available_mod {s : State} (h : s.fs.inRange s.cfg) :
    (s.fs.tail + s.available) % s.cfg.n = s.fs.head := by
  have hle : s.fs.tail ≤ s.cfg.n + s.fs.head := h.tail_lt.le.trans (Nat.le_add_right _ _)
  rw [State.available, Nat.add_mod_mod, Nat.add_sub_of_le hle, Nat.add_mod_left, Nat.mod_eq_of_lt h.head_lt]

/-- `available` is the one count below N that leads from `tail` to `head` (41_ring_buffer.md R89). -/
theorem State.available_eq_of_mod {s : State} (h : s.fs.inRange s.cfg) {a : Nat} (ha : a < s.cfg.n)
    (hmod : (s.fs.tail + a) % s.cfg.n = s.fs.head) : s.available = a := by
  have hadd : s.fs.tail + s.available ≡ s.fs.tail + a [MOD s.cfg.n] := (State.tail_add_available_mod h).trans hmod.symm
  exact (Nat.ModEq.add_left_cancel' _ hadd).eq_of_lt_of_lt s.available_lt ha

theorem State.drainCount_le (s : State) (m : Nat) : s.drainCount m ≤ s.available := Nat.min_le_right _ _

theorem FsState.inRange.drained {s : State} (h : s.fs.inRange s.cfg) (m : Nat) :
    (s.drained m).fs.inRange (s.drained m).cfg := by
  obtain ⟨hhead, -, hwf, hcells⟩ := h
  exact ⟨hhead, Nat.mod_lt _ s.cfg.n_pos, hwf, hcells⟩

/-- A DRAIN takes its frames off `available`. -/
theorem State.drained_available {s : State} (h : s.fs.inRange s.cfg) (m : Nat) :
    (s.drained m).available = s.available - s.drainCount m := by
  refine State.available_eq_of_mod (h.drained m) (Nat.sub_lt_of_lt s.available_lt) ?_
  calc ((s.fs.tail + s.drainCount m) % s.cfg.n + (s.available - s.drainCount m)) % s.cfg.n
    _ = (s.fs.tail + s.drainCount m + (s.available - s.drainCount m)) % s.cfg.n := Nat.mod_add_mod _ _ _
    _ = (s.fs.tail + s.available) % s.cfg.n := by rw [Nat.add_assoc, Nat.add_sub_of_le (s.drainCount_le m)]
    _ = s.fs.head := State.tail_add_available_mod h

@[simp] theorem State.length_unread (s : State) : s.unread.length = s.available := by
  simp [State.unread, State.slotsFrom]

theorem State.drainFrames_eq_take (s : State) (m : Nat) : s.drainFrames m = s.unread.take m := by
  simp [State.drainFrames, State.drainCount, State.unread, State.slotsFrom, ← List.map_take, List.take_range]

/-- The slots from the `d`-th on, by their own start. -/
theorem State.slotsFrom_drop (s : State) (i c d : Nat) :
    (s.slotsFrom i c).drop d = s.slotsFrom ((i + d) % s.cfg.n) (c - d) := by
  refine List.ext_getElem (by simp [State.slotsFrom]) fun j _ _ => ?_
  simp [State.slotsFrom, Nat.add_assoc]

theorem State.drained_unread {s : State} (h : s.fs.inRange s.cfg) (m : Nat) :
    (s.drained m).unread = s.unread.drop (s.drainCount m) := by
  rw [State.unread, State.drained_available h, State.unread, State.slotsFrom_drop]
  rfl

/-- Settles O43: what READ returns and what it leaves are functions of the parameters and the unread frames. -/
theorem readerSeesOnlyUnreadFrames : Obligations.ReaderSeesOnlyUnreadFrames := by
  intro s u n hcfg hs hu hunread
  have hav : s.available = u.available := by rw [← s.length_unread, hunread, u.length_unread]
  have hm : s.readFrames n = u.readFrames n := by simp [State.readFrames, hav]
  refine ⟨_, _, rfl, rfl, ?_, ?_⟩
  · simp [State.drainFrames_eq_take, hm, hunread, hcfg]
  · simp [State.drained_unread hs, State.drained_unread hu, State.drainCount, hm, hav, hunread]

end Sys2Proof.Machine
end

section
/-! PROOF. The machine's invariant, in its two halves: the receiver's registers, which only a rule of STEP and RESET
write, and the frame store, which changes by a PUSH, a DRAIN or a RESET (10_state.md R19 to R24). -/

namespace Sys2Proof.Machine

/-! ### The receiver's half -/

/-- The receiver's half of the invariant. -/
def RxState.Sound (c : Params) (r : RxState) : Prop := r.inRange c ∧ r.consistent

theorem RxState.consistent_of_idle {r : RxState} (h : r.st = Code.idle) : r.consistent := by
  simp [RxState.consistent, h]

theorem RxState.consistent_iff_of_waitStart {r : RxState} (h : r.st = Code.waitStart) :
    r.consistent ↔ r.idx = 0 ∧ r.acc = 0 ∧ r.abort = false ∧ r.dataPull = false := by
  simp [RxState.consistent, h]

theorem RxState.consistent_iff_of_eoiAck {r : RxState} (h : r.st = Code.eoiAck) :
    r.consistent ↔ r.idx = 0 ∧ r.acc = 0 ∧ r.eoi = true ∧ r.dataPull = true := by
  simp [RxState.consistent, h]

theorem RxState.consistent_iff_of_bitReady {r : RxState} (h : r.st = Code.bitReady) :
    r.consistent ↔ r.acc.toNat < 2 ^ r.idx.toNat ∧ r.abort = false ∧ r.dataPull = false := by
  simp [RxState.consistent, h]

theorem RxState.consistent_iff_of_bitSample {r : RxState} (h : r.st = Code.bitSample) :
    r.consistent ↔ r.acc.toNat < 2 ^ r.idx.toNat ∧ r.abort = false ∧ r.dataPull = false := by
  simp [RxState.consistent, h]

theorem RxState.consistent_iff_of_bitRelease {r : RxState} (h : r.st = Code.bitRelease) :
    r.consistent ↔ r.acc.toNat < 2 ^ (r.idx.toNat + 1) ∧ r.abort = false ∧ r.dataPull = false := by
  simp [RxState.consistent, h]

/-- A sample in bit period `i` sets no bit above `i` (30_encoding.md R52). -/
theorem sampled_toNat_lt {acc : BitVec 8} {i : BitVec 3} (h : acc.toNat < 2 ^ i.toNat) (d : Bool) :
    (sampled acc i d).toNat < 2 ^ (i.toNat + 1) := by
  have hacc : acc.toNat < 2 ^ (i.toNat + 1) := h.trans (Nat.pow_lt_pow_right (by decide) (Nat.lt_succ_self _))
  have hbit : (1#8 <<< i.toNat).toNat < 2 ^ (i.toNat + 1) := by
    rw [BitVec.toNat_shiftLeft, Nat.shiftLeft_eq]
    calc 1 * 2 ^ i.toNat % 2 ^ 8
      _ ≤ 1 * 2 ^ i.toNat := Nat.mod_le _ _
      _ < 2 ^ (i.toNat + 1) := by omega
  cases d with
  | false => exact hacc
  | true => simpa [sampled] using Nat.or_lt_two_pow hacc hbit

theorem toNat_succ_of_lt_seven {i : BitVec 3} (h : i < 7) : (i + 1).toNat = i.toNat + 1 := by
  bv_omega

theorem RuleOutcome.rx_inRange {inp : StepIn} {s t : State} (h : RuleOutcome inp s t)
    (hnow : inp.now < s.cfg.timeMod) (hs : s.rx.inRange s.cfg) : t.rx.inRange s.cfg := by
  obtain ⟨hlegal, hanchor, hpulse⟩ := hs
  cases h with
  | waited => exact ⟨hlegal, hanchor, hpulse⟩
  | started | went | sample | nextBit => exact ⟨rfl, hnow, hpulse⟩
  | pulseBegan => exact ⟨rfl, hanchor, hnow⟩
  | pulseEnded | ready | startTimeout | pulseAborted | readyTimeout | releaseTimeout | completed =>
    exact ⟨rfl, hanchor, hpulse⟩

theorem RuleOutcome.rx_consistent {inp : StepIn} {s t : State} (h : RuleOutcome inp s t) (hs : s.rx.consistent) :
    t.rx.consistent := by
  cases h with
  | waited => exact hs
  | started => exact (RxState.consistent_iff_of_waitStart rfl).2 ⟨rfl, rfl, rfl, rfl⟩
  | went hst =>
    obtain ⟨-, hacc, habort, hpull⟩ := (RxState.consistent_iff_of_waitStart hst).1 hs
    exact (RxState.consistent_iff_of_bitReady rfl).2 ⟨by simp [hacc], habort, hpull⟩
  | pulseBegan hst =>
    obtain ⟨hidx, hacc, -, -⟩ := (RxState.consistent_iff_of_waitStart hst).1 hs
    exact (RxState.consistent_iff_of_eoiAck rfl).2 ⟨hidx, hacc, rfl, rfl⟩
  | pulseEnded hst _ habort =>
    obtain ⟨hidx, hacc, -, -⟩ := (RxState.consistent_iff_of_eoiAck hst).1 hs
    exact (RxState.consistent_iff_of_waitStart rfl).2 ⟨hidx, hacc, habort, rfl⟩
  | ready hst => exact (RxState.consistent_iff_of_bitSample rfl).2 ((RxState.consistent_iff_of_bitReady hst).1 hs)
  | sample hst =>
    obtain ⟨hacc, habort, hpull⟩ := (RxState.consistent_iff_of_bitSample hst).1 hs
    exact (RxState.consistent_iff_of_bitRelease rfl).2 ⟨sampled_toNat_lt hacc _, habort, hpull⟩
  | nextBit hst _ hlt =>
    obtain ⟨hacc, habort, hpull⟩ := (RxState.consistent_iff_of_bitRelease hst).1 hs
    exact (RxState.consistent_iff_of_bitReady rfl).2 ⟨(toNat_succ_of_lt_seven hlt).symm ▸ hacc, habort, hpull⟩
  | startTimeout | pulseAborted | readyTimeout | releaseTimeout | completed => exact RxState.consistent_of_idle rfl

theorem RuleOutcome.rx_sound {inp : StepIn} {s t : State} (h : RuleOutcome inp s t)
    (hnow : inp.now < s.cfg.timeMod) (hs : s.rx.Sound s.cfg) : t.rx.Sound s.cfg := by
  obtain ⟨hrange, hconsistent⟩ := hs
  exact ⟨h.rx_inRange hnow hrange, h.rx_consistent hconsistent⟩

theorem RxState.reset_sound (c : Params) : RxState.reset.Sound c :=
  ⟨⟨rfl, timeMod_pos c, timeMod_pos c⟩, RxState.consistent_of_idle rfl⟩

/-! ### The frame store's half -/

/-- The frame store's half of the invariant. -/
def State.StoreSound (s : State) : Prop := s.fs.inRange s.cfg ∧ s.fs.framesOk ∧ s.unreadWritten

/-- An assembled frame has bits 15:10 zero (30_encoding.md R50). -/
theorem frameWord_ok (a e : Bool) (acc : BitVec 8) : Frame.ok (frameWord a e acc) = true := by
  have hlt := (BitVec.ofBool (atnFlag a) ++ BitVec.ofBool e ++ acc).isLt
  rw [Frame.ok, decide_eq_true_eq, frameWord, BitVec.toNat_setWidth]
  exact (Nat.mod_le _ _).trans_lt hlt

theorem FsState.inRange.pushed {s : State} (h : s.fs.inRange s.cfg) (f : Frame) :
    (s.pushed f).fs.inRange (s.pushed f).cfg := by
  obtain ⟨hhead, htail, hwf, hcells⟩ := h
  refine ⟨Nat.mod_lt _ s.cfg.n_pos, htail, Memory.wf_writeSlot _ f hwf, fun cell hcell => ?_⟩
  obtain rfl | rfl | hold := Memory.mem_writeSlot hcell
  · simp; omega
  · simp; omega
  · exact hcells cell hold

theorem FsState.framesOk.pushed {s : State} (h : s.fs.framesOk) {f : Frame} (hf : Frame.ok f = true) :
    (s.pushed f).fs.framesOk := by
  intro cell hcell hodd
  obtain rfl | rfl | hold := Memory.mem_writeSlot hcell
  · simp at hodd
  · simp [Frame.ok] at hf
    simp [Nat.shiftRight_eq_div_pow]
    omega
  · exact h cell hold hodd

/-- A PUSH adds its frame to `available`, modulo N (41_ring_buffer.md R88, R89). -/
theorem State.pushed_available {s : State} (h : s.fs.inRange s.cfg) (f : Frame) :
    (s.pushed f).available = (s.available + 1) % s.cfg.n := by
  refine State.available_eq_of_mod (h.pushed f) (Nat.mod_lt _ s.cfg.n_pos) ?_
  calc (s.fs.tail + (s.available + 1) % s.cfg.n) % s.cfg.n
    _ = (s.fs.tail + s.available + 1) % s.cfg.n := by rw [Nat.add_mod_mod, Nat.add_assoc]
    _ = ((s.fs.tail + s.available) % s.cfg.n + 1) % s.cfg.n := (Nat.mod_add_mod _ _ _).symm
    _ = (s.fs.head + 1) % s.cfg.n := by rw [State.tail_add_available_mod h]

theorem State.pushed_written_head (s : State) (f : Frame) : (s.pushed f).fs.written s.fs.head := by
  simp [FsState.written, Memory.find?_writeSlot]

/-- A PUSH unwrites no slot. -/
theorem FsState.written.pushed {s : State} {i : Nat} (h : s.fs.written i) (f : Frame) :
    (s.pushed f).fs.written i := by
  by_cases hi : i = s.fs.head
  · exact hi ▸ s.pushed_written_head f
  · have hlow : 2 * i ≠ 2 * s.fs.head + 1 := by omega
    have hhigh : 2 * i + 1 ≠ 2 * s.fs.head := by omega
    simpa [FsState.written, Memory.find?_writeSlot, hi, hlow, hhigh] using h

theorem State.unreadWritten.pushed {s : State} (h : s.unreadWritten) (hr : s.fs.inRange s.cfg) (f : Frame) :
    (s.pushed f).unreadWritten := by
  intro j hj
  rw [State.pushed_available hr] at hj
  have hle : j < s.available + 1 := hj.trans_le (Nat.mod_le _ _)
  obtain hlt | rfl := Nat.lt_succ_iff_lt_or_eq.1 hle
  · exact (h j hlt).pushed f
  · have hhead := s.pushed_written_head f
    rwa [← State.tail_add_available_mod hr] at hhead

theorem State.StoreSound.pushed {s : State} (h : s.StoreSound) {f : Frame} (hf : Frame.ok f = true) :
    (s.pushed f).StoreSound := by
  obtain ⟨hr, hframes, hwritten⟩ := h
  exact ⟨hr.pushed f, hframes.pushed hf, hwritten.pushed hr f⟩

theorem State.unreadWritten.drained {s : State} (h : s.unreadWritten) (hr : s.fs.inRange s.cfg) (m : Nat) :
    (s.drained m).unreadWritten := by
  intro j hj
  rw [State.drained_available hr] at hj
  have hold := h (s.drainCount m + j) (by omega)
  simpa [FsState.written, Nat.add_assoc] using hold

theorem State.StoreSound.drained {s : State} (h : s.StoreSound) (m : Nat) : (s.drained m).StoreSound := by
  obtain ⟨hr, hframes, hwritten⟩ := h
  exact ⟨hr.drained m, hframes, hwritten.drained hr m⟩

/-- An empty store has nothing to read and nothing ill-formed. -/
theorem State.storeSound_of_reset {s : State} {e : Nat} (h : s.fs = FsState.reset e) : s.StoreSound := by
  have hav : s.available = 0 := by simp [State.available, h, FsState.reset]
  refine ⟨?_, ?_, ?_⟩
  · rw [h]
    exact ⟨s.cfg.n_pos, s.cfg.n_pos, rfl, nofun⟩
  · rw [h]
    exact nofun
  · intro j hj
    omega

/-- A rule of STEP touches the store only by the PUSH of an assembled frame. -/
theorem RuleOutcome.storeSound {inp : StepIn} {s t : State} (h : RuleOutcome inp s t) (hs : s.StoreSound) :
    t.StoreSound := by
  cases h with
  | completed => exact State.StoreSound.pushed (s := s.completing inp.atn) hs (frameWord_ok _ _ _)
  | _ => exact hs

/-! ### Every step -/

theorem State.inv_iff (s : State) : s.Inv ↔ s.rx.Sound s.cfg ∧ s.StoreSound := by
  unfold State.Inv RxState.Sound State.StoreSound
  tauto

theorem State.timeMeets.now_lt {s : State} {now : Nat} (h : s.timeMeets now) : now < s.cfg.timeMod := by
  obtain ⟨rfl, -⟩ := h
  exact Nat.mod_lt _ (timeMod_pos s.cfg)

theorem RuleOutcome.inv {inp : StepIn} {s t : State} (h : RuleOutcome inp s t) (hnow : inp.now < s.cfg.timeMod)
    (hs : s.Inv) : t.Inv := by
  obtain ⟨hrx, hstore⟩ := s.inv_iff.1 hs
  obtain ⟨hcfg, -⟩ := h.sameOutside.sameEnvironment
  exact t.inv_iff.2 ⟨hcfg ▸ h.rx_sound hnow hrx, h.storeSound hstore⟩

theorem exec_portOp_inv {i : Instr} {s t : State} (hport : i.isPortOp = true) (hs : s.Inv)
    (h : exec i s = .next t) : t.Inv := by
  cases i with
  | step inp =>
    obtain ⟨htime, hrule⟩ := execStep_next_iff_outcome.1 h
    exact hrule.inv htime.now_lt hs
  | read n =>
    cases h
    obtain ⟨hrx, hstore⟩ := s.inv_iff.1 hs
    exact (State.inv_iff _).2 ⟨hrx, hstore.drained _⟩
  | write n => cases h; exact hs
  | reset => cases h; exact (State.inv_iff _).2 ⟨RxState.reset_sound _, State.storeSound_of_reset rfl⟩
  | reserved4to7 | reserved8toF => cases h
  | _ => cases hport

/-- Settles O53: the fetch only latches the issue, and each port operation keeps both halves. -/
theorem stepKeepsTheInvariant : Obligations.StepKeepsTheInvariant := by
  intro s t hs h
  obtain ⟨-, rfl⟩ | ⟨i, u, hfetch, hexec⟩ := step_next_iff.1 h
  · exact hs
  · obtain ⟨hport, time, rest, rfl, -⟩ := fetch_run hfetch
    exact exec_portOp_inv hport (s := s.issuedAt time rest) hs hexec

end Sys2Proof.Machine
end

section
/-! PROOF. Elapsed time against true time (10_state.md R28): they agree over less than `2^TIME_W` microseconds, which
short gaps ensure for every wait and R28 alone does not (log 14). -/

namespace Sys2Proof.Machine

/-- Between two true instants less than `2^TIME_W` apart, the elapsed time of their residues is the true one. -/
theorem elapsed_mod_eq_sub {c : Params} {now x : Nat} (hle : x ≤ now) (hlt : now < x + c.timeMod) :
    elapsed c (now % c.timeMod) (x % c.timeMod) = now - x := by
  refine (eq_elapsed_of_add_modEq (by omega) ?_).symm
  calc x % c.timeMod + (now - x)
    _ ≡ x + (now - x) [MOD c.timeMod] := (Nat.mod_modEq x _).add_right _
    _ = now := Nat.add_sub_of_le hle
    _ ≡ now % c.timeMod [MOD c.timeMod] := (Nat.mod_modEq now _).symm

/-- The fetch finds the STEP whose inputs `nextStepIn` gives. -/
theorem State.fetch_of_nextStepIn {s : State} {inp : StepIn} (h : s.nextStepIn = some inp) :
    ∃ time rest, fetch s = .run (.step inp) (s.issuedAt time rest) := by
  unfold State.nextStepIn at h
  split at h
  · next hfetch =>
    cases h
    obtain ⟨-, time, rest, rfl, -⟩ := fetch_run hfetch
    exact ⟨time, rest, hfetch⟩
  · cases h

/-- What the times of a STEP that answers are: its input is its true time modulo `2^TIME_W`, which is not before the
last STEP's. -/
theorem step_times {s t : State} {inp : StepIn} (hin : s.nextStepIn = some inp) (h : step s = .next t) :
    t.clock % s.cfg.timeMod = inp.now ∧ ∀ l, s.lastStep = some l → l ≤ t.clock := by
  obtain ⟨time, rest, hfetch⟩ := State.fetch_of_nextStepIn hin
  have hexec : exec (.step inp) (s.issuedAt time rest) = .next t := by rwa [step, hfetch] at h
  obtain ⟨⟨hnow, hlast⟩, hrule⟩ := execStep_next_iff_outcome.1 hexec
  obtain ⟨-, -, hclock⟩ := hrule.sameOutside.sameEnvironment
  rw [hclock]
  exact ⟨hnow, fun l hl => (hlast l hl).1⟩

/-- Settles O58: in each wait the last STEP lies at most `TIMEOUT_US + EOI_PULSE_US + G` after the anchor, in the pulse
at most `EOI_PULSE_US` after its start, and this STEP at most `G` later. -/
theorem elapsedIsTrueTimeUnderShortGaps : Obligations.ElapsedIsTrueTimeUnderShortGaps := by
  intro G s t g inp htimes hin hstep hgap hsmall
  obtain ⟨hnow, hlast⟩ := step_times hin hstep
  refine ⟨fun hwait => ?_, fun hst => ?_⟩
  · have hst : s.rx.st ≠ Code.idle := by obtain h | h | h := hwait <;> simp [h]
    obtain ⟨l, hl, -, hanchor, hreg, hstart, -, hready, -, hrelease⟩ := htimes hst
    have hle : l ≤ t.clock := hlast l hl
    have hbound : t.clock ≤ l + G := hgap l (by simp [hin]) hl
    have hwaited : l ≤ g.anchor + (s.cfg.timeoutUs + s.cfg.eoiPulseUs + G) := by
      obtain h | h | h := hwait
      · obtain ⟨ha, hl'⟩ := hstart h
        split at hl' <;> omega
      · obtain ⟨hl', -⟩ := hready h
        omega
      · obtain ⟨hl', -⟩ := hrelease h
        omega
    rw [State.sinceAnchor, hreg, ← hnow]
    exact elapsed_mod_eq_sub (by omega) (by omega)
  · obtain ⟨l, hl, -, -, -, -, hack, -⟩ := htimes (by simp [hst])
    obtain ⟨-, -, hreg, -, hpulse, hl', -⟩ := hack hst
    have hle : l ≤ t.clock := hlast l hl
    have hbound : t.clock ≤ l + G := hgap l (by simp [hin]) hl
    rw [State.sincePulse, hreg, ← hnow]
    exact elapsed_mod_eq_sub (by omega) (by omega)

/-! ### The counterexample to R28's claim (log 14) -/

/-- A STEP issued at true time `time`, with CLOCK and DATA at 1, that triggers or polls. -/
def issuedStep (trig : Bool) (time : Nat) : Issue :=
  .record (.step { trig := trig, clk := true, data := true, atn := true, now := time % 2 ^ 32 }) time

/-- The STEPs of the counterexample: the session starts at 0, the EOI pulse begins at 10000, ends a long gap later at
4294967215, and the start wait goes on at 4294967301, past `2^32`. -/
def lateSession : List Issue :=
  [issuedStep true 0, issuedStep false 10000, issuedStep false 4294967215, issuedStep false 4294967301]

/-- The machine in the late session: its registers, the true time of its last STEP, what is still issued. -/
def lateState (rx : RxState) (time : Nat) (ops : List Issue) : State :=
  { State.reset with rx := rx, clock := time, lastStep := some time, ops := ops }

/-- The receiver after the session start at 0. -/
def lateStarted : RxState := { RxState.reset with st := Code.waitStart }

/-- The receiver in the EOI pulse that begins at 10000, not past the timeout. -/
def latePulse : RxState := { lateStarted with st := Code.eoiAck, eoi := true, tPulse := 10000, dataPull := true }

/-- The receiver back in the start wait, with the anchor of the session start. -/
def lateResumed : RxState := { latePulse with st := Code.waitStart, dataPull := false }

theorem late_starts : step { State.reset with ops := lateSession } = .next (lateState lateStarted 0 lateSession.tail) :=
  rfl

theorem late_pulse_begins :
    step (lateState lateStarted 0 lateSession.tail) = .next (lateState latePulse 10000 (lateSession.drop 2)) := rfl

theorem late_pulse_ends :
    step (lateState latePulse 10000 (lateSession.drop 2))
      = .next (lateState lateResumed 4294967215 (lateSession.drop 3)) := rfl

theorem late_waits :
    step (lateState lateResumed 4294967215 (lateSession.drop 3)) = .next (lateState lateResumed 4294967301 []) := rfl

/-- The true times of the late session once its pulse has ended: the anchor is still the session start at 0. -/
theorem late_reached :
    Reached (lateState lateResumed 4294967215 (lateSession.drop 3)) { start := 0, anchor := 0, pulse := 10000 } :=
  .next (.next (.next (.start lateSession { start := 0, anchor := 0, pulse := 0 }) late_starts) late_pulse_begins)
    late_pulse_ends

/-- What the start wait compares at 4294967301. -/
theorem late_elapsed :
    (lateState lateResumed 4294967215 (lateSession.drop 3)).sinceAnchor (4294967301 % 2 ^ 32) = 5 := by decide

/-- Refutes O59: at 4294967301 the start wait compares an elapsed time of 5. -/
theorem not_elapsedIsTrueTimeWheneverCompared : ¬ Obligations.ElapsedIsTrueTimeWheneverCompared := by
  intro h
  have hclaim := h _ _ _ _ late_reached rfl late_waits rfl rfl
  have htrue : 5 = 4294967301 - 0 := late_elapsed.symm.trans hclaim
  omega

end Sys2Proof.Machine
end

section
/-! PROOF. The read port's byte pair, the fault of a PUSH outside the frame store, and which operation a step runs
(20_memory.md R30, R34, R40). -/

namespace Sys2Proof.Machine

/-- Settles O10: each byte order is one branch of `ser`. -/
theorem readPortByteOrder : Obligations.ReadPortByteOrder := fun _ => ⟨rfl, rfl⟩

/-! ### A PUSH outside the store (log 9) -/

theorem push_of_ge {f : Frame} {s : State} (h : s.cfg.n ≤ s.fs.head) : push f s = .fault (.noSuchSlot s.fs.head) :=
  if_neg h.not_gt

theorem complete_of_ge {atn : Bool} {s : State} (h : s.cfg.n ≤ s.fs.head) :
    complete atn s = .fault (.noSuchSlot s.fs.head) :=
  push_of_ge (s := s.completing atn) h

/-- Bit 7's release wait ends by a completion, at CLOCK 0 and at a timeout alike (40_receiver.md R79, R80), whether or
not its PUSH has a slot. -/
theorem runRule_eq_complete {inp : StepIn} {s : State} (hst : s.rx.st = Code.bitRelease) (hi : s.rx.idx = 7)
    (hend : inp.clk = false ∨ s.timedOut inp.now = true) : runRule inp s = complete inp.atn s := by
  cases hc : inp.clk with
  | false => simp [runRule, hst, hc, execStepBitReleaseClk0_of_seven hi]
  | true =>
    have ht : s.timedOut inp.now = true := hend.resolve_left (by simp [hc])
    simp [runRule, hst, hc, execStepBitReleaseClk1_of_seven ht hi]

/-- Settles O34: the completing STEP comes down to its PUSH, at the head the STEP found. -/
theorem pushOutsideTheStoreFaults : Obligations.PushOutsideTheStoreFaults := by
  intro s hhead
  refine ⟨fun _ => push_of_ge hhead, fun inp htime hst hi hend => ?_⟩
  have hend : inp.clk = false ∨ s.stepped.timedOut inp.now = true := hend.imp_right State.timedOut_eq_true.2
  calc exec (.step inp) s
    _ = runRule inp s.stepped := execStep_of_meets htime
    _ = complete inp.atn s.stepped := runRule_eq_complete hst hi hend
    _ = .fault (.noSuchSlot s.fs.head) := complete_of_ge hhead

/-! ### What a step runs (log 1) -/

theorem fetch_of_nil {s : State} (h : s.ops = []) : fetch s = .idle := by
  simp [fetch, h]

theorem fetch_of_word {s : State} {w : OpWord} {i : Instr} {time : Nat} {rest : List Issue}
    (h : s.ops = .word w time :: rest) (hd : decode s.cfg w = .ok i) : fetch s = .run i (s.issuedAt time rest) := by
  simp [fetch, h, hd]

theorem fetch_of_record {s : State} {i : Instr} {time : Nat} {rest : List Issue}
    (h : s.ops = .record i time :: rest) (hp : i.isPortOp = true) : fetch s = .run i (s.issuedAt time rest) := by
  simp [fetch, h, hp]

theorem step_of_fetch_run {s t : State} {i : Instr} (h : fetch s = .run i t) : step s = exec i t := by
  simp [step, h]

/-- Settles O50: `issuedAt` is the state with the issue taken off the list and the clock at its time. -/
theorem stepRunsTheIssuedOperation : Obligations.StepRunsTheIssuedOperation := fun _ _ _ _ =>
  ⟨fun _ h hd => step_of_fetch_run (fetch_of_word h hd), fun h hp => step_of_fetch_run (fetch_of_record h hp)⟩

/-- Settles O51: the fetch finds nothing to run. -/
theorem nothingIssuedNothingChanges : Obligations.NothingIssuedNothingChanges := fun _ h =>
  step_next_iff.2 (.inl ⟨fetch_of_nil h, rfl⟩)

end Sys2Proof.Machine
end

section
/-! PROOF. The operation word's fields and what the decoder reads from them (30_encoding.md R54 to R60). -/

namespace Sys2Proof

/-! ### The fields of a word -/

/-- Bits 3:0, bits 7:4 one by one, and bits 39:8 are the whole word. -/
theorem OpWord.ext_fields {v w : OpWord} (hop : v.extractLsb' 0 4 = w.extractLsb' 0 4)
    (h4 : v.getLsbD 4 = w.getLsbD 4) (h5 : v.getLsbD 5 = w.getLsbD 5) (h6 : v.getLsbD 6 = w.getLsbD 6)
    (h7 : v.getLsbD 7 = w.getLsbD 7) (hhigh : OpWord.high v = OpWord.high w) : v = w := by
  have hhigh : v.extractLsb' 8 32 = w.extractLsb' 8 32 := BitVec.eq_of_toNat_eq hhigh
  refine BitVec.eq_of_getLsbD_eq fun j hj => ?_
  obtain hlow | rfl | rfl | rfl | rfl | hge : j < 4 ∨ j = 4 ∨ j = 5 ∨ j = 6 ∨ j = 7 ∨ 8 ≤ j := by omega
  · simpa [hlow] using congrArg (BitVec.getLsbD · j) hop
  · exact h4
  · exact h5
  · exact h6
  · exact h7
  · have hlt : j - 8 < 32 := by omega
    simpa [hlt, Nat.add_sub_of_le hge] using congrArg (BitVec.getLsbD · (j - 8)) hhigh

theorem OpWord.high_append_byte (w : OpWord) : BitVec.ofNat 32 (OpWord.high w) ++ w.extractLsb' 0 8 = w := by
  rw [OpWord.high, BitVec.ofNat_toNat, BitVec.setWidth_eq]
  exact (BitVec.extractLsb'_append_extractLsb'_eq_extractLsb' (by decide)).trans BitVec.extractLsb'_eq_self

theorem OpWord.nibble_append_op (w : OpWord) : w.extractLsb' 4 4 ++ w.extractLsb' 0 4 = w.extractLsb' 0 8 :=
  BitVec.extractLsb'_append_extractLsb'_eq_extractLsb' (by decide)

theorem OpWord.rest_append_op (w : OpWord) : w.extractLsb' 4 36 ++ w.extractLsb' 0 4 = w :=
  (BitVec.extractLsb'_append_extractLsb'_eq_extractLsb' (by decide)).trans BitVec.extractLsb'_eq_self

theorem OpWord.high_lt (w : OpWord) : OpWord.high w < 2 ^ 32 := (w.extractLsb' 8 32).isLt

theorem OpWord.testBit_high (w : OpWord) (j : Nat) :
    (OpWord.high w).testBit j = (decide (j < 32) && w.getLsbD (8 + j)) := by
  rw [OpWord.high, BitVec.testBit_toNat, BitVec.getLsbD_extractLsb']

/-- Bits 39:8 exceed the time input exactly where a time bit above `TIME_W` is set (30_encoding.md R60). -/
theorem OpWord.timeMod_le_high_iff (c : Params) (w : OpWord) :
    c.timeMod ≤ OpWord.high w ↔ ∃ j, 8 + c.timeW ≤ j ∧ j < 40 ∧ w.getLsbD j = true := by
  constructor
  · intro h
    obtain ⟨j, hj, hbit⟩ := Nat.exists_ge_and_testBit_of_ge_two_pow h
    simp only [OpWord.testBit_high, Bool.and_eq_true, decide_eq_true_eq] at hbit
    obtain ⟨hlt, hbit⟩ := hbit
    exact ⟨8 + j, by omega, by omega, hbit⟩
  · rintro ⟨j, hge, hlt, hbit⟩
    have hlt : j - 8 < 32 := by omega
    have hset : (OpWord.high w).testBit (j - 8) = true := by
      simp [OpWord.testBit_high, hlt, Nat.add_sub_of_le (show 8 ≤ j by omega), hbit]
    calc c.timeMod
      _ ≤ 2 ^ (j - 8) := Nat.pow_le_pow_right (by decide) (by omega)
      _ ≤ OpWord.high w := Nat.ge_two_pow_of_testBit hset

/-- Bits 3:0 name one of the four port operations or lie in one of the two reserved ranges (30_encoding.md R54, R59). -/
theorem op_cases : ∀ op : BitVec 4,
    op = 0 ∨ op = 1 ∨ op = 2 ∨ op = 3 ∨ (∃ low : BitVec 2, op = 0b01#2 ++ low) ∨
      ∃ low : BitVec 3, op = 0b1#1 ++ low := by
  decide

/-! ### What the decoder reads, by bits 3:0 -/

section Decode
variable {c : Params} {w : OpWord}

theorem decode_of_op_step (h : w.extractLsb' 0 4 = 0) : decode c w = decodeStep c w := by
  simp [decode, h]

theorem decode_of_op_read (h : w.extractLsb' 0 4 = 1) :
    decode c w = if w.extractLsb' 4 4 = 0 then .ok (.read (OpWord.high w)) else .error .mustBeZero := by
  simp [decode, h]

theorem decode_of_op_write (h : w.extractLsb' 0 4 = 2) :
    decode c w = if w.extractLsb' 4 4 = 0 then .ok (.write (OpWord.high w)) else .error .mustBeZero := by
  simp [decode, h]

theorem decode_of_op_reset (h : w.extractLsb' 0 4 = 3) :
    decode c w = if w.extractLsb' 4 36 = 0 then .ok .reset else .error .mustBeZero := by
  simp [decode, h]

theorem decode_of_op_reserved4to7 {low : BitVec 2} (h : w.extractLsb' 0 4 = 0b01#2 ++ low) :
    decode c w = .ok (.reserved4to7 low (w.extractLsb' 4 36)) := by
  have hlow : w.extractLsb' 0 2 = low := by
    rw [← BitVec.extractLsb'_extractLsb'_of_le (len' := 4) (by decide), h]
    exact BitVec.extractLsb'_append_eq_right
  have hop : ∀ l : BitVec 2, (0b01#2 ++ l).toNat = 4 ∨ (0b01#2 ++ l).toNat = 5 ∨ (0b01#2 ++ l).toNat = 6 ∨
    (0b01#2 ++ l).toNat = 7 := by decide
  obtain hop | hop | hop | hop := hop low <;> simp only [decode, h, hop, hlow]

theorem decode_of_op_reserved8toF {low : BitVec 3} (h : w.extractLsb' 0 4 = 0b1#1 ++ low) :
    decode c w = .ok (.reserved8toF low (w.extractLsb' 4 36)) := by
  have hlow : w.extractLsb' 0 3 = low := by
    rw [← BitVec.extractLsb'_extractLsb'_of_le (len' := 4) (by decide), h]
    exact BitVec.extractLsb'_append_eq_right
  have hge : ∀ l : BitVec 3, 8 ≤ (0b1#1 ++ l).toNat := by decide
  have hge : 8 ≤ (w.extractLsb' 0 4).toNat := h ▸ hge low
  unfold decode
  split
  case h_9 => rw [hlow]
  all_goals omega

theorem decodeStep_of_wideTime (hw : 32 < c.timeW) : decodeStep c w = .error .wideTime := if_pos hw

theorem decodeStep_of_timeBits (hw : c.timeW ≤ 32) (hnow : c.timeMod ≤ OpWord.high w) :
    decodeStep c w = .error .timeBits :=
  (if_neg hw.not_gt).trans (if_pos hnow)

theorem decodeStep_of_fits (hw : c.timeW ≤ 32) (hnow : OpWord.high w < c.timeMod) :
    decodeStep c w = .ok (.step { trig := w.getLsbD 4, clk := w.getLsbD 5, data := w.getLsbD 6, atn := w.getLsbD 7
                                  now := OpWord.high w }) :=
  (if_neg hw.not_gt).trans (if_neg hnow.not_ge)

/-- The three premises of the equations of `decodeStep` leave no case out. -/
theorem decodeStep_premises (c : Params) (w : OpWord) :
    32 < c.timeW ∨ (c.timeW ≤ 32 ∧ c.timeMod ≤ OpWord.high w) ∨ (c.timeW ≤ 32 ∧ OpWord.high w < c.timeMod) := by
  omega

/-- A word the decoder does not read is malformed in the way the decoder names (30_encoding.md R56, R60). -/
theorem malformedBy_of_decode_eq_error {e : DecodeError} (h : decode c w = .error e) : Machine.MalformedBy c w e := by
  obtain hop | hop | hop | hop | ⟨low, hop⟩ | ⟨low, hop⟩ := op_cases (w.extractLsb' 0 4)
  · rw [decode_of_op_step hop] at h
    obtain hw | ⟨hw, hnow⟩ | ⟨hw, hnow⟩ := decodeStep_premises c w
    · cases (decodeStep_of_wideTime hw).symm.trans h
      exact ⟨hop, hw⟩
    · cases (decodeStep_of_timeBits hw hnow).symm.trans h
      exact ⟨hop, (OpWord.timeMod_le_high_iff c w).1 hnow⟩
    · cases (decodeStep_of_fits hw hnow).symm.trans h
  · rw [decode_of_op_read hop] at h
    split at h <;> cases h
    next hset => exact .inl ⟨.inl hop, hset⟩
  · rw [decode_of_op_write hop] at h
    split at h <;> cases h
    next hset => exact .inl ⟨.inr hop, hset⟩
  · rw [decode_of_op_reset hop] at h
    split at h <;> cases h
    next hset => exact .inr ⟨hop, hset⟩
  · cases (decode_of_op_reserved4to7 hop).symm.trans h
  · cases (decode_of_op_reserved8toF hop).symm.trans h

/-- The converse: a malformed word is not read, for the reason that makes it malformed. -/
theorem Machine.MalformedBy.decode_eq_error {e : DecodeError} (h : Machine.MalformedBy c w e) :
    decode c w = .error e := by
  cases e with
  | mustBeZero =>
    obtain ⟨hop | hop, hset⟩ | ⟨hop, hset⟩ := h
    · rw [decode_of_op_read hop, if_neg hset]
    · rw [decode_of_op_write hop, if_neg hset]
    · rw [decode_of_op_reset hop, if_neg hset]
  | timeBits =>
    obtain ⟨hop, hbits⟩ := h
    have hw : c.timeW ≤ 32 := by
      obtain ⟨j, hge, hlt, -⟩ := hbits
      omega
    exact (decode_of_op_step hop).trans (decodeStep_of_timeBits hw ((OpWord.timeMod_le_high_iff c w).2 hbits))
  | wideTime =>
    obtain ⟨hop, hw⟩ := h
    exact (decode_of_op_step hop).trans (decodeStep_of_wideTime hw)

end Decode

end Sys2Proof
end

section
/-! PROOF. The words the encoder writes, as the decoder's inverse and as values (30_encoding.md R54, R56, R57, R69). -/

namespace Sys2Proof

/-! ### The word of a STEP -/

/-- The word of a STEP (30_encoding.md R56). -/
def stepWord (inp : StepIn) : OpWord :=
  BitVec.ofNat 32 inp.now ++ BitVec.ofBool inp.atn ++ BitVec.ofBool inp.data ++ BitVec.ofBool inp.clk
    ++ BitVec.ofBool inp.trig ++ 0x0#4

theorem stepWord_op (inp : StepIn) : (stepWord inp).extractLsb' 0 4 = 0 := BitVec.extractLsb'_append_eq_right

theorem stepWord_high (inp : StepIn) : OpWord.high (stepWord inp) = inp.now % 2 ^ 32 := by
  rw [OpWord.high, stepWord]
  iterate 5 rw [BitVec.extractLsb'_append_eq_of_le (by decide)]
  simp

theorem stepWord_trig (inp : StepIn) : (stepWord inp).getLsbD 4 = inp.trig := by
  simp only [stepWord, BitVec.getLsbD_append]
  simp

theorem stepWord_clk (inp : StepIn) : (stepWord inp).getLsbD 5 = inp.clk := by
  simp only [stepWord, BitVec.getLsbD_append]
  simp

theorem stepWord_data (inp : StepIn) : (stepWord inp).getLsbD 6 = inp.data := by
  simp only [stepWord, BitVec.getLsbD_append]
  simp

theorem stepWord_atn (inp : StepIn) : (stepWord inp).getLsbD 7 = inp.atn := by
  simp only [stepWord, BitVec.getLsbD_append]
  simp

/-- A word of op 0 is the word of the STEP its fields give (30_encoding.md R56). -/
theorem stepWord_of_fields {w : OpWord} (hop : w.extractLsb' 0 4 = 0) :
    stepWord { trig := w.getLsbD 4, clk := w.getLsbD 5, data := w.getLsbD 6, atn := w.getLsbD 7,
               now := OpWord.high w } = w :=
  OpWord.ext_fields ((stepWord_op _).trans hop.symm) (stepWord_trig _) (stepWord_clk _) (stepWord_data _)
    (stepWord_atn _) ((stepWord_high _).trans (Nat.mod_eq_of_lt (OpWord.high_lt w)))

/-! ### A count in front of a byte (30_encoding.md R57) -/

theorem high_append {n : Nat} (hn : n < 2 ^ 32) (b : BitVec 8) : OpWord.high (BitVec.ofNat 32 n ++ b) = n := by
  rw [OpWord.high, BitVec.extractLsb'_append_eq_left, BitVec.toNat_ofNat, Nat.mod_eq_of_lt hn]

theorem op_append (x : BitVec 32) (b : BitVec 8) : (x ++ b).extractLsb' 0 4 = b.extractLsb' 0 4 :=
  BitVec.extractLsb'_append_eq_of_add_le (by decide)

theorem nibble_append (x : BitVec 32) (b : BitVec 8) : (x ++ b).extractLsb' 4 4 = b.extractLsb' 4 4 :=
  BitVec.extractLsb'_append_eq_of_add_le (by decide)

/-- A word with bits 7:4 clear is its bits 39:8, four zeros and its op. -/
theorem OpWord.eq_high_append {w : OpWord} {op : BitVec 4} (hop : w.extractLsb' 0 4 = op)
    (hzero : w.extractLsb' 4 4 = 0) : BitVec.ofNat 32 (OpWord.high w) ++ (0#4 ++ op) = w := by
  have hlow : 0#4 ++ op = w.extractLsb' 0 8 := by rw [← OpWord.nibble_append_op, hzero, hop]; rfl
  rw [hlow]
  exact OpWord.high_append_byte w

/-! ### The encoder -/

theorem encode_step {c : Params} {inp : StepIn} (hw : c.timeW ≤ 32) (hnow : inp.now < c.timeMod) :
    encode c (.step inp) = some (stepWord inp) := by
  simp [encode, Instr.fitsWord, Params.timeOk, hw, hnow, stepWord]

theorem encode_read {c : Params} {n : Nat} (hn : n < 2 ^ 32) :
    encode c (.read n) = some (BitVec.ofNat 32 n ++ 0x01#8) :=
  if_pos (decide_eq_true hn)

theorem encode_write {c : Params} {n : Nat} (hn : n < 2 ^ 32) :
    encode c (.write n) = some (BitVec.ofNat 32 n ++ 0x02#8) :=
  if_pos (decide_eq_true hn)

/-- An operation that is no port operation has no word (30_encoding.md R64). -/
theorem encode_eq_none {c : Params} {i : Instr} (h : i.isPortOp = false) : encode c i = none := by
  cases i with
  | step | read | write | reset | reserved4to7 | reserved8toF => cases h
  | _ => rfl

/-! ### Decoder and encoder are inverse -/

theorem decode_stepWord {c : Params} {inp : StepIn} (hw : c.timeW ≤ 32) (hnow : inp.now < c.timeMod) :
    decode c (stepWord inp) = .ok (.step inp) := by
  have hle : c.timeMod ≤ 2 ^ 32 := Nat.pow_le_pow_right (by decide) hw
  have hhigh : OpWord.high (stepWord inp) = inp.now := (stepWord_high inp).trans (Nat.mod_eq_of_lt (by omega))
  rw [decode_of_op_step (stepWord_op inp), decodeStep_of_fits hw (hhigh ▸ hnow), hhigh, stepWord_trig, stepWord_clk,
    stepWord_data, stepWord_atn]

theorem decode_readWord {c : Params} {n : Nat} (hn : n < 2 ^ 32) :
    decode c (BitVec.ofNat 32 n ++ 0x01#8) = .ok (.read n) := by
  rw [decode_of_op_read (op_append _ _), nibble_append, if_pos (by decide), high_append hn]

theorem decode_writeWord {c : Params} {n : Nat} (hn : n < 2 ^ 32) :
    decode c (BitVec.ofNat 32 n ++ 0x02#8) = .ok (.write n) := by
  rw [decode_of_op_write (op_append _ _), nibble_append, if_pos (by decide), high_append hn]

theorem decode_reserved4to7Word {c : Params} (low : BitVec 2) (rest : BitVec 36) :
    decode c (rest ++ 0b01#2 ++ low) = .ok (.reserved4to7 low rest) := by
  have hassoc : rest ++ 0b01#2 ++ low = rest ++ (0b01#2 ++ low) := BitVec.append_assoc
  rw [hassoc, decode_of_op_reserved4to7 BitVec.extractLsb'_append_eq_right, BitVec.extractLsb'_append_eq_left]

theorem decode_reserved8toFWord {c : Params} (low : BitVec 3) (rest : BitVec 36) :
    decode c (rest ++ 0b1#1 ++ low) = .ok (.reserved8toF low rest) := by
  have hassoc : rest ++ 0b1#1 ++ low = rest ++ (0b1#1 ++ low) := BitVec.append_assoc
  rw [hassoc, decode_of_op_reserved8toF BitVec.extractLsb'_append_eq_right, BitVec.extractLsb'_append_eq_left]

/-- Settles O2, operation by operation. -/
theorem decodeOfEncodeIsTheOperation : Obligations.DecodeOfEncodeIsTheOperation := by
  intro c i h
  cases i with
  | step inp =>
    simp only [Instr.fitsWord, Params.timeOk, Bool.and_eq_true, decide_eq_true_eq] at h
    obtain ⟨hw, hnow⟩ := h
    exact ⟨_, encode_step hw hnow, decode_stepWord hw hnow⟩
  | read n =>
    have hn : n < 2 ^ 32 := of_decide_eq_true h
    exact ⟨_, encode_read hn, decode_readWord hn⟩
  | write n =>
    have hn : n < 2 ^ 32 := of_decide_eq_true h
    exact ⟨_, encode_write hn, decode_writeWord hn⟩
  | reset => exact ⟨_, rfl, decode_of_op_reset rfl⟩
  | reserved4to7 low rest => exact ⟨_, rfl, decode_reserved4to7Word low rest⟩
  | reserved8toF low rest => exact ⟨_, rfl, decode_reserved8toFWord low rest⟩
  | _ => cases h

/-- Settles O3, by bits 3:0 of the word. -/
theorem encodeOfDecodeIsTheWord : Obligations.EncodeOfDecodeIsTheWord := by
  intro c w i h
  obtain hop | hop | hop | hop | ⟨low, hop⟩ | ⟨low, hop⟩ := op_cases (w.extractLsb' 0 4)
  · rw [decode_of_op_step hop] at h
    obtain hw | ⟨hw, hnow⟩ | ⟨hw, hnow⟩ := decodeStep_premises c w
    · cases (decodeStep_of_wideTime hw).symm.trans h
    · cases (decodeStep_of_timeBits hw hnow).symm.trans h
    · cases (decodeStep_of_fits hw hnow).symm.trans h
      rw [encode_step hw hnow, stepWord_of_fields hop]
  · rw [decode_of_op_read hop] at h
    split at h <;> cases h
    next hzero => exact (encode_read w.high_lt).trans (congrArg some (OpWord.eq_high_append hop hzero))
  · rw [decode_of_op_write hop] at h
    split at h <;> cases h
    next hzero => exact (encode_write w.high_lt).trans (congrArg some (OpWord.eq_high_append hop hzero))
  · rw [decode_of_op_reset hop] at h
    split at h <;> cases h
    next hzero =>
      have hword := OpWord.rest_append_op w
      rw [hzero, hop] at hword
      exact congrArg some hword
  · cases (decode_of_op_reserved4to7 hop).symm.trans h
    exact congrArg some (BitVec.append_assoc.trans (hop ▸ OpWord.rest_append_op w))
  · cases (decode_of_op_reserved8toF hop).symm.trans h
    exact congrArg some (BitVec.append_assoc.trans (hop ▸ OpWord.rest_append_op w))

/-- Settles O1: seven closed decodings. -/
theorem operationWordsDecode : Obligations.OperationWordsDecode := ⟨rfl, rfl, rfl, rfl, rfl, rfl, rfl⟩

/-! ### The words of a script (30_encoding.md R69) -/

theorem stepWord_toNat (inp : StepIn) :
    (stepWord inp).toNat = ((inp.now % 2 ^ 32) <<< 8) ||| (inp.atn.toNat <<< 7) ||| (inp.data.toNat <<< 6)
      ||| (inp.clk.toNat <<< 5) ||| (inp.trig.toNat <<< 4) ||| 0x0 := by
  simp only [stepWord, BitVec.toNat_append, BitVec.toNat_ofNat, BitVec.toNat_ofBool, Nat.shiftLeft_or_distrib,
    ← Nat.shiftLeft_add]

theorem OpWord.eq_ofNat_of_toNat_eq {w : OpWord} {n : Nat} (h : w.toNat = n) : w = BitVec.ofNat 40 n := by
  rw [← h, BitVec.ofNat_toNat, BitVec.setWidth_eq]

theorem countWord_toNat {n : Nat} (hn : n < 2 ^ 32) (b : BitVec 8) :
    (BitVec.ofNat 32 n ++ b).toNat = n <<< 8 ||| b.toNat := by
  rw [BitVec.toNat_append, BitVec.toNat_ofNat, Nat.mod_eq_of_lt hn]

/-- Settles O4: the words' values, with every shift distributed over the fields; the examples are closed. -/
theorem scriptLineWords : Obligations.ScriptLineWords := by
  refine ⟨fun c T g k d a hw => ?_, fun c n hn => ⟨?_, ?_⟩, fun c => rfl, rfl, rfl⟩
  · have hnow : T % 2 ^ 32 < c.timeMod := by
      rw [Params.timeMod, hw]
      exact Nat.mod_lt _ (by decide)
    rw [encode_step hw.le hnow, OpWord.eq_ofNat_of_toNat_eq (stepWord_toNat _), Nat.mod_mod]
  · exact (encode_read hn).trans (congrArg some (OpWord.eq_ofNat_of_toNat_eq (countWord_toNat hn _)))
  · exact (encode_write hn).trans (congrArg some (OpWord.eq_ofNat_of_toNat_eq (countWord_toNat hn _)))

end Sys2Proof
end

section
/-! PROOF. The rules of STEP by their state codes (30_encoding.md R53, R61): which rule a code selects, that every rule
of a legal code answers, and that no operation leaves an unused code. -/

namespace Sys2Proof

/-! ### The rule of a code -/

theorem Code.ne_of_not_legal {st : BitVec 3} (h : Code.legal st = false) :
    st ≠ Code.idle ∧ st ≠ Code.waitStart ∧ st ≠ Code.eoiAck ∧ st ≠ Code.bitReady ∧ st ≠ Code.bitSample ∧
      st ≠ Code.bitRelease := by
  simpa [Code.legal, and_assoc] using h

theorem Code.legal_eq_false_of_unused {st : BitVec 3} (h : st = 0b110 ∨ st = 0b111) : Code.legal st = false := by
  obtain rfl | rfl := h <;> rfl

theorem encodeRule_decodeRule {st : BitVec 3} (h : Code.legal st = true) (inp : StepIn) (p : Bool) :
    encodeRule (decodeRule st inp p) = some st := by
  obtain rfl | rfl | rfl | rfl | rfl | rfl := Code.legal_iff.1 h
  · rw [decodeRule_idle]
    split <;> rfl
  · rw [decodeRule_waitStart]
    split <;> rfl
  · rw [decodeRule_eoiAck]
    split <;> rfl
  · rfl
  · rfl
  · rw [decodeRule_bitRelease]
    split <;> rfl

theorem decodeRule_of_not_legal {st : BitVec 3} (h : Code.legal st = false) (inp : StepIn) (p : Bool) :
    decodeRule st inp p = .stepIllegalState := by
  obtain ⟨h0, h1, h2, h3, h4, h5⟩ := Code.ne_of_not_legal h
  simp [decodeRule, h0, h1, h2, h3, h4, h5]

/-- Settles O7. -/
theorem ruleCodesAgree : Obligations.RuleCodesAgree := fun _ inp p =>
  ⟨fun h => encodeRule_decodeRule h inp p, fun h => decodeRule_of_not_legal h inp p⟩

end Sys2Proof

namespace Sys2Proof.Machine

/-! ### The rule a STEP runs -/

section RunRule
variable {inp : StepIn} {s : State}

theorem runRule_of_idle (h : s.rx.st = Code.idle) :
    runRule inp s = if inp.trig then execStepIdleStart inp.now s else execStepIdle s := by
  simp [runRule, h]

theorem runRule_of_waitStart (h : s.rx.st = Code.waitStart) :
    runRule inp s = if inp.clk then execStepWaitStartClk1 inp.now s else execStepWaitStartClk0 inp.now s := by
  simp [runRule, h]

theorem runRule_of_eoiAck (h : s.rx.st = Code.eoiAck) :
    runRule inp s = if s.pulseOver inp.now then execStepEoiAckEnd s else execStepEoiAckRun s := by
  simp [runRule, h]

theorem runRule_of_bitReady (h : s.rx.st = Code.bitReady) :
    runRule inp s = execStepBitReady inp.clk inp.now s := by
  simp [runRule, h]

theorem runRule_of_bitSample (h : s.rx.st = Code.bitSample) :
    runRule inp s = execStepBitSample inp.data inp.now s := by
  simp [runRule, h]

theorem runRule_of_bitRelease (h : s.rx.st = Code.bitRelease) :
    runRule inp s = if inp.clk then execStepBitReleaseClk1 inp.atn inp.now s
      else execStepBitReleaseClk0 inp.atn inp.now s := by
  simp [runRule, h]

theorem runRule_of_not_legal (h : Code.legal s.rx.st = false) :
    runRule inp s = .refused (.illegalState s.rx.st) := by
  obtain ⟨h0, h1, h2, h3, h4, h5⟩ := Code.ne_of_not_legal h
  simp [runRule, h0, h1, h2, h3, h4, h5, execStepIllegalState]

end RunRule

/-! ### No operation leaves an unused code -/

/-- Whatever state `a` answers, its receiver is in one of the six states. -/
def LeavesLegal (a : Answer) : Prop := ∀ t, a = .next t → Code.legal t.rx.st = true

theorem LeavesLegal.next {t : State} (h : Code.legal t.rx.st = true) : LeavesLegal (.next t) := by
  rintro _ ⟨⟩
  exact h

theorem LeavesLegal.push {f : Frame} {s : State} (h : Code.legal s.rx.st = true) : LeavesLegal (push f s) := by
  intro t ht
  obtain ⟨-, rfl⟩ := push_next_iff.1 ht
  exact h

theorem LeavesLegal.complete {atn : Bool} {s : State} : LeavesLegal (complete atn s) :=
  .push Code.legal_idle

theorem LeavesLegal.ite {c : Prop} [Decidable c] {a b : Answer} (ha : LeavesLegal a) (hb : LeavesLegal b) :
    LeavesLegal (if c then a else b) := by
  split
  · exact ha
  · exact hb

theorem RuleOutcome.legal {inp : StepIn} {s t : State} (h : RuleOutcome inp s t) (hs : Code.legal s.rx.st = true) :
    Code.legal t.rx.st = true := by
  cases h with
  | waited => exact hs
  | _ => rfl

theorem exec_leavesLegal (i : Instr) {s : State} (hs : Code.legal s.rx.st = true) : LeavesLegal (exec i s) := by
  cases i with
  | step inp =>
    intro t ht
    obtain ⟨-, hrule⟩ := execStep_next_iff_outcome.1 ht
    exact hrule.legal hs
  | read | write | available | drain => exact .next hs
  | reset => exact .next rfl
  | reserved4to7 | reserved8toF | stepIllegalState => exact nofun
  | push => exact .push hs
  | stepIdle | stepEoiAckRun => exact .next hs
  | stepIdleStart | stepWaitStartClk0 | stepBitSample => exact .next rfl
  | stepWaitStartClk1 | stepBitReady => exact .ite (.next rfl) (.ite (.next rfl) (.next hs))
  | stepEoiAckEnd => exact .ite (.next rfl) (.next rfl)
  | stepBitReleaseClk0 => exact .ite (.next rfl) .complete
  | stepBitReleaseClk1 => exact .ite (.ite (.next rfl) .complete) (.next hs)

/-- Settles O15: an unused code is left over by every branch of `runRule`, and each operation keeps or writes a legal
one. -/
theorem illegalStateIsRefusedAndUnreachable : Obligations.IllegalStateIsRefusedAndUnreachable := by
  refine ⟨fun s => rfl, fun s inp hst => ?_, fun i s t hs => exec_leavesLegal i hs t⟩
  have hmeets : s.timeMeets inp.now → exec (.step inp) s = .refused (.illegalState s.rx.st) := fun htime =>
    (execStep_of_meets htime).trans (runRule_of_not_legal (Code.legal_eq_false_of_unused hst))
  refine ⟨?_, hmeets⟩
  cases htime : s.timeRefusal inp.now with
  | none => exact ⟨_, hmeets ((s.timeRefusal_eq_none_iff _).1 htime)⟩
  | some r => exact ⟨r, execStep_refused_of_timeRefusal htime⟩

/-! ### Every rule of a legal code answers -/

/-- `a` is a next state, no stop. -/
def IsNext (a : Answer) : Prop := ∃ t, a = .next t

theorem IsNext.next {t : State} : IsNext (.next t) := ⟨t, rfl⟩

theorem IsNext.complete {atn : Bool} {s : State} (h : s.fs.head < s.cfg.n) : IsNext (complete atn s) :=
  ⟨_, complete_of_lt h⟩

theorem IsNext.ite {c : Prop} [Decidable c] {a b : Answer} (ha : IsNext a) (hb : IsNext b) :
    IsNext (if c then a else b) := by
  split
  · exact ha
  · exact hb

/-- A rule stops only on an unused code or by a PUSH outside the store. -/
theorem runRule_isNext {inp : StepIn} {s : State} (hs : Code.legal s.rx.st = true) (hh : s.fs.head < s.cfg.n) :
    IsNext (runRule inp s) := by
  obtain hst | hst | hst | hst | hst | hst := Code.legal_iff.1 hs
  · exact runRule_of_idle hst ▸ .ite .next .next
  · exact runRule_of_waitStart hst ▸ .ite (.ite .next (.ite .next .next)) .next
  · exact runRule_of_eoiAck hst ▸ .ite (.ite .next .next) .next
  · exact runRule_of_bitReady hst ▸ .ite .next (.ite .next .next)
  · exact runRule_of_bitSample hst ▸ .next
  · exact runRule_of_bitRelease hst ▸ .ite (.ite (.ite .next (.complete hh)) .next) (.ite .next (.complete hh))

end Sys2Proof.Machine
end

section
/-! PROOF. What the fetch and the operations refuse (30_encoding.md R59, R60, R64): each stop of a step, with its
cause. -/

namespace Sys2Proof.Machine

/-! ### The fetch -/

theorem step_of_fetch_stop {s : State} {r : Refusal} (h : fetch s = .stop r) : step s = .refused r := by
  simp [step, h]

theorem fetch_of_malformed {s : State} {w : OpWord} {time : Nat} {rest : List Issue} {e : DecodeError}
    (h : s.ops = .word w time :: rest) (he : MalformedBy s.cfg w e) : fetch s = .stop (.malformedWord e) := by
  simp [fetch, h, he.decode_eq_error]

theorem fetch_of_not_issuable {s : State} {i : Instr} {time : Nat} {rest : List Issue}
    (h : s.ops = .record i time :: rest) (hp : i.isPortOp = false) : fetch s = .stop .notIssuable := by
  simp [fetch, h, hp]

/-- R60's list of malformed words is `MalformedBy`'s: a RESET word with a bit of 7:4 set has a bit of 39:4 set. -/
theorem malformedBy_of_set_bit {c : Params} {w : OpWord}
    (h : ((w.extractLsb' 0 4 = 1 ∨ w.extractLsb' 0 4 = 2 ∨ w.extractLsb' 0 4 = 3) ∧ w.extractLsb' 4 4 ≠ 0) ∨
      (w.extractLsb' 0 4 = 3 ∧ w.extractLsb' 4 36 ≠ 0) ∨
      (w.extractLsb' 0 4 = 0 ∧ ∃ j, 8 + c.timeW ≤ j ∧ j < 40 ∧ w.getLsbD j = true)) :
    ∃ e, MalformedBy c w e := by
  obtain ⟨hop | hop | hop, hset⟩ | hreset | hstep := h
  · exact ⟨.mustBeZero, .inl ⟨.inl hop, hset⟩⟩
  · exact ⟨.mustBeZero, .inl ⟨.inr hop, hset⟩⟩
  · refine ⟨.mustBeZero, .inr ⟨hop, fun hzero => hset ?_⟩⟩
    have hword := OpWord.rest_append_op w
    rw [hzero, hop] at hword
    rw [← hword]
    rfl
  · exact ⟨.mustBeZero, .inr hreset⟩
  · exact ⟨.timeBits, hstep⟩

/-- Settles O5: a malformed word is not decoded, so the fetch stops. -/
theorem malformedWordsAreRefused : Obligations.MalformedWordsAreRefused := by
  intro s w time rest hops hset
  obtain ⟨e, he⟩ := malformedBy_of_set_bit hset
  exact ⟨e, step_of_fetch_stop (fetch_of_malformed hops he)⟩

/-! ### Reserved words -/

theorem reserved_op_cases : ∀ op : BitVec 4, 4 ≤ op.toNat →
    (∃ low : BitVec 2, op = 0b01#2 ++ low) ∨ ∃ low : BitVec 3, op = 0b1#1 ++ low := by
  decide

theorem exec_reserved4to7 (low : BitVec 2) (rest : BitVec 36) (s : State) :
    exec (.reserved4to7 low rest) s = .refused (.reservedOp (0b01#2 ++ low)) := rfl

theorem exec_reserved8toF (low : BitVec 3) (rest : BitVec 36) (s : State) :
    exec (.reserved8toF low rest) s = .refused (.reservedOp (0b1#1 ++ low)) := rfl

/-- Settles O6: a word of op 4 or more decodes to a reserved row with the same op. -/
theorem reservedWordsAreRefused : Obligations.ReservedWordsAreRefused := by
  refine ⟨exec_reserved4to7, exec_reserved8toF, fun s w time rest hops hge => ?_⟩
  obtain ⟨low, hop⟩ | ⟨low, hop⟩ := reserved_op_cases _ hge
  · rw [hop]
    exact step_of_fetch_run (fetch_of_word hops (decode_of_op_reserved4to7 hop))
  · rw [hop]
    exact step_of_fetch_run (fetch_of_word hops (decode_of_op_reserved8toF hop))

/-! ### Internal operations -/

theorem decodeInternal_cases {code : BitVec 2} {f : Frame} {m : Nat} {i : Instr}
    (h : decodeInternal code f m = some i) :
    (code = 0 ∧ i = .push f) ∨ (code = 1 ∧ i = .available) ∨ (code = 2 ∧ i = .drain m) := by
  have hcodes : ∀ code : BitVec 2, code = 0 ∨ code = 1 ∨ code = 2 ∨ code = 3 := by decide
  obtain rfl | rfl | rfl | rfl := hcodes code <;> cases h
  · exact .inl ⟨rfl, rfl⟩
  · exact .inr (.inl ⟨rfl, rfl⟩)
  · exact .inr (.inr ⟨rfl, rfl⟩)

/-- Settles O8: by the three codes, and by the fetch for a record. -/
theorem internalCodesAgree : Obligations.InternalCodesAgree := by
  refine ⟨fun f m => ⟨rfl, rfl, rfl, rfl⟩, fun code f m i h => ?_, fun s i time rest hops hp => ?_⟩
  · obtain ⟨rfl, rfl⟩ | ⟨rfl, rfl⟩ | ⟨rfl, rfl⟩ := decodeInternal_cases h <;>
      exact ⟨rfl, rfl, fun _ => encode_eq_none rfl⟩
  · exact step_of_fetch_stop (fetch_of_not_issuable hops hp)

/-! ### Every stop -/

/-- A STEP from a legal state answers, or its time breaks R28 and it is refused under one of three names. -/
theorem execStep_isNext_or_refused (inp : StepIn) {s : State} (hs : Code.legal s.rx.st = true)
    (hh : s.fs.head < s.cfg.n) :
    (∃ t, exec (.step inp) s = .next t) ∨
      ∃ r, ¬ s.timeMeets inp.now ∧ exec (.step inp) s = .refused r ∧
        (r = .clockMismatch ∨ r = .timeBackwards ∨ r = .gapTooLong) := by
  cases htime : s.timeRefusal inp.now with
  | none =>
    rw [execStep_of_meets ((s.timeRefusal_eq_none_iff _).1 htime)]
    exact .inl (runRule_isNext hs hh)
  | some r =>
    refine .inr ⟨r, ?_, execStep_refused_of_timeRefusal htime, State.timeRefusal_eq_some htime⟩
    simp [← State.timeRefusal_eq_none_iff, htime]

/-- Settles O54: the fetch's stops are `fetch_stop`'s, and of the port operations only a reserved word and a STEP can
stop. -/
theorem onlyNamedRefusalsStopTheMachine : Obligations.OnlyNamedRefusalsStopTheMachine := by
  rintro s ⟨⟨hlegal, -⟩, hstore, -⟩
  cases hfetch : fetch s with
  | idle => exact step_next_iff.2 (.inl ⟨hfetch, rfl⟩)
  | stop r =>
    refine ⟨step_of_fetch_stop hfetch, (fetch_stop hfetch).imp ?_ ?_⟩
    · rintro ⟨w, time, rest, e, hops, hd, hr⟩
      exact ⟨w, time, rest, e, hops, hr, malformedBy_of_decode_eq_error hd⟩
    · rintro ⟨i, time, rest, hops, hp, hr⟩
      exact ⟨i, time, rest, hops, hr, hp⟩
  | run i u =>
    obtain ⟨hport, time, rest, rfl, -⟩ := fetch_run hfetch
    dsimp only
    rw [step_of_fetch_run hfetch]
    cases i with
    | step inp =>
      obtain hnext | ⟨r, hr⟩ := execStep_isNext_or_refused inp (s := s.issuedAt time rest) hlegal hstore.head_lt
      · exact .inl hnext
      · exact .inr (.inr (.inr ⟨inp, r, rfl, hr⟩))
    | read | write | reset => exact .inl ⟨_, rfl⟩
    | reserved4to7 low bits => exact .inr (.inl ⟨low, bits, rfl, rfl⟩)
    | reserved8toF low bits => exact .inr (.inr (.inl ⟨low, bits, rfl, rfl⟩))
    | _ => cases hport

end Sys2Proof.Machine
end

section
/-! PROOF. The layout of the event record (30_encoding.md R62, R63). -/

namespace Sys2Proof.Machine

theorem Event.record_kind (e : Event) : e.record.extractLsb' 0 2 = e.kind.code := BitVec.extractLsb'_append_eq_right

theorem Event.record_index (e : Event) : e.record.extractLsb' 2 3 = e.index := by
  rw [Event.record, BitVec.extractLsb'_append_eq_of_le (by decide)]
  exact BitVec.extractLsb'_append_eq_right

theorem Event.record_phase (e : Event) : e.record.extractLsb' 5 1 = e.phase := by
  rw [Event.record, BitVec.extractLsb'_append_eq_of_le (by decide), BitVec.extractLsb'_append_eq_of_le (by decide)]
  exact BitVec.extractLsb'_append_eq_right

theorem Event.record_frame (e : Event) : e.record.extractLsb' 6 16 = e.frame := by
  rw [Event.record, BitVec.extractLsb'_append_eq_of_le (by decide), BitVec.extractLsb'_append_eq_of_le (by decide)]
  exact BitVec.extractLsb'_append_eq_left

/-- Settles O9: each field is cut out of the concatenation; the codes are closed. -/
theorem eventRecordLayout : Obligations.EventRecordLayout :=
  ⟨fun e => ⟨e.record_kind, e.record_index, e.record_phase, e.record_frame⟩, rfl, rfl, rfl, rfl⟩

end Sys2Proof.Machine
end

section
/-! PROOF. The rules of STEP: the one a STEP runs is `decodeRule`'s, and what each writes (40_receiver.md R70 to R80,
R83). The STEP does what its rule does alone, and notes its time (log 7). -/

namespace Sys2Proof.Machine

/-! ### The STEP and its rule -/

/-- The branches of `runRule` are `decodeRule`'s, each with the meaning of its row. -/
theorem runRule_eq_exec_decodeRule (inp : StepIn) (s : State) :
    runRule inp s = exec (decodeRule s.rx.st inp (s.pulseOver inp.now)) s := by
  cases hlegal : Code.legal s.rx.st with
  | false => rw [runRule_of_not_legal hlegal, decodeRule_of_not_legal hlegal]; rfl
  | true =>
    obtain hst | hst | hst | hst | hst | hst := Code.legal_iff.1 hlegal
    · rw [runRule_of_idle hst, hst, decodeRule_idle]
      split <;> rfl
    · rw [runRule_of_waitStart hst, hst, decodeRule_waitStart]
      split <;> rfl
    · rw [runRule_of_eoiAck hst, hst, decodeRule_eoiAck]
      split <;> rfl
    · rw [runRule_of_bitReady hst, hst, decodeRule_bitReady]; rfl
    · rw [runRule_of_bitSample hst, hst, decodeRule_bitSample]; rfl
    · rw [runRule_of_bitRelease hst, hst, decodeRule_bitRelease]
      split <;> rfl

/-- Settles O13. -/
theorem stepRunsTheRuleOfItsState : Obligations.StepRunsTheRuleOfItsState := fun s inp htime =>
  (execStep_of_meets htime).trans (runRule_eq_exec_decodeRule inp s.stepped)

/-- No rule reads or writes the noted time of the last STEP (log 7). -/
theorem RuleOutcome.stepped {inp : StepIn} {s t : State} (h : RuleOutcome inp s t) :
    RuleOutcome inp s.stepped t.stepped := by
  cases h with
  | waited h => exact .waited (s := s.stepped) h
  | started hst hg => exact .started (s := s.stepped) hst hg
  | went hst hc => exact .went (s := s.stepped) hst hc
  | pulseBegan hst hc he => exact .pulseBegan (s := s.stepped) hst hc he
  | startTimeout hst hc he ht => exact .startTimeout (s := s.stepped) hst hc he ht
  | pulseAborted hst hp ha => exact .pulseAborted (s := s.stepped) hst hp ha
  | pulseEnded hst hp ha => exact .pulseEnded (s := s.stepped) hst hp ha
  | ready hst hc => exact .ready (s := s.stepped) hst hc
  | readyTimeout hst hc ht => exact .readyTimeout (s := s.stepped) hst hc ht
  | sample hst => exact .sample (s := s.stepped) hst
  | nextBit hst hc hi => exact .nextBit (s := s.stepped) hst hc hi
  | releaseTimeout hst hc ht hi => exact .releaseTimeout (s := s.stepped) hst hc ht hi
  | completed hst hi hend hh => exact .completed (s := s.stepped) hst hi hend hh

/-- The STEP that chooses rule `i` leaves what the rule leaves, with its time noted. -/
theorem exec_rule_and_step {inp : StepIn} {s t : State} {i : Instr} (htime : s.timeMeets inp.now)
    (hrule : decodeRule s.rx.st inp (s.pulseOver inp.now) = i) (h : exec i s = .next t) :
    exec i s = .next t ∧ exec (.step inp) s = .next t.stepped := by
  have hrun : runRule inp s = .next t := by rw [runRule_eq_exec_decodeRule, hrule, h]
  exact ⟨h, execStep_next_iff_outcome.2 ⟨htime, (runRule_outcome hrun).stepped⟩⟩

/-! ### IDLE -/

/-- Settles O16: the trigger chooses between the two rules of IDLE. -/
theorem idleWaitsForATrigger : Obligations.IdleWaitsForATrigger := by
  intro s inp hst htime
  refine ⟨rfl, ?_⟩
  rw [stepRunsTheRuleOfItsState s inp htime, hst, decodeRule_idle]
  split <;> rfl

/-- Settles O17. -/
theorem triggerInIdleStartsASession : Obligations.TriggerInIdleStartsASession := fun s inp hst htrig htime =>
  exec_rule_and_step htime (by rw [hst, decodeRule_idle, if_pos htrig]) rfl

/-- Settles O27: of the rules, those of IDLE alone are chosen by the trigger, and no time check reads it. -/
theorem triggerOutsideIdleIsIgnored : Obligations.TriggerOutsideIdleIsIgnored := by
  intro s inp hst
  have hrun : runRule { inp with trig := true } s.stepped = runRule { inp with trig := false } s.stepped := by
    simp only [runRule, if_neg (show ¬ s.stepped.rx.st = Code.idle from hst)]
  simp only [exec, execStep, hrun]

/-! ### The start wait and the EOI pulse -/

/-- Settles O18. -/
theorem clockLowEndsTheStartWait : Obligations.ClockLowEndsTheStartWait := fun s inp hst hclk htime =>
  exec_rule_and_step htime (by simp [hst, decodeRule_waitStart, hclk]) rfl

/-- Settles O19: the rule tests the acknowledgment first and the timeout after it. -/
theorem clockHighContinuesTheStartWait : Obligations.ClockHighContinuesTheStartWait := by
  intro s inp hst hclk htime
  refine exec_rule_and_step htime (by rw [hst, decodeRule_waitStart, if_pos hclk]) ?_
  simp only [exec, execStepWaitStartClk1, State.eoiDue_eq_true, State.timedOut_eq_true, gt_iff_lt]
  split
  · rfl
  · split <;> rfl

/-- Settles O20. -/
theorem pulseRunsUnchanged : Obligations.PulseRunsUnchanged := by
  intro s inp hst htime hpulse
  exact exec_rule_and_step htime (by simp [hst, decodeRule_eoiAck, State.pulseOver_eq_false.2 hpulse]) rfl

/-- Settles O21. -/
theorem pulseEndReleasesData : Obligations.PulseEndReleasesData := by
  intro s inp hst htime hpulse
  refine exec_rule_and_step htime (by rw [hst, decodeRule_eoiAck, if_pos (State.pulseOver_eq_true.2 hpulse)]) ?_
  simp only [exec, execStepEoiAckEnd]
  split <;> rfl

/-! ### The waits of a bit -/

/-- Settles O22: the rule tests CLOCK first and the timeout after it. -/
theorem bitReadyWaitsForClockHigh : Obligations.BitReadyWaitsForClockHigh := by
  intro s inp hst htime
  refine exec_rule_and_step htime (by rw [hst, decodeRule_bitReady]) ?_
  simp only [exec, execStepBitReady, State.timedOut_eq_true, gt_iff_lt]
  split
  · rfl
  · split <;> rfl

/-- Settles O23, by the bits of `sampled`. -/
theorem bitSampleSetsItsBit : Obligations.BitSampleSetsItsBit := fun s inp hst htime =>
  ⟨sampled s.rx.acc s.rx.idx inp.data, sampled_getLsbD _ _ _,
    exec_rule_and_step htime (by rw [hst, decodeRule_bitSample]) rfl⟩

end Sys2Proof.Machine
end

section
/-! PROOF. How a session ends: a completion pushes the assembled frame, an abort leaves the frame store alone
(40_receiver.md R79 to R82), and every other STEP stays in its session. -/

namespace Sys2Proof.Machine

/-! ### Completion -/

theorem pushEffect_pushed (s : State) (f : Frame) : PushEffect s (s.pushed f) f :=
  ⟨s.pushed_readSlot_head f, fun _ => s.pushed_readByte_other f, rfl, rfl, rfl⟩

/-- What `complete()` leaves is what R81 says, by the bits of the frame word. -/
theorem completeEffect_completing (s : State) (atn : Bool) :
    CompleteEffect s ((s.completing atn).pushed (s.frameOf atn)) atn := by
  refine ⟨s.frameOf atn, fun j hj => ?_, ?_, ?_, fun j hj => ?_,
    pushEffect_pushed (s.completing atn) (s.frameOf atn), rfl, rfl, rfl, rfl, rfl, rfl, rfl⟩
  · rw [State.frameOf, frameWord_getLsbD, if_pos hj]
  · exact frameWord_getLsbD _ _ _ 8
  · exact frameWord_getLsbD _ _ _ 9
  · have hlow : ¬ j < 8 := by omega
    have h8 : j ≠ 8 := by omega
    have h9 : j ≠ 9 := by omega
    rw [State.frameOf, frameWord_getLsbD, if_neg hlow, if_neg h8, if_neg h9]

/-- The completing rule alone and the STEP that chooses it, where `head` is a slot index. -/
theorem exec_completion_and_step {inp : StepIn} {s : State} {i : Instr} (htime : s.timeMeets inp.now)
    (hrule : decodeRule s.rx.st inp (s.pulseOver inp.now) = i) (hexec : exec i s = complete inp.atn s)
    (hhead : s.fs.head < s.cfg.n) :
    ∃ t, exec i s = .next t ∧ exec (.step inp) s = .next t.stepped ∧ CompleteEffect s t inp.atn := by
  obtain ⟨hi, hstep⟩ := exec_rule_and_step htime hrule (hexec.trans (complete_of_lt hhead))
  exact ⟨_, hi, hstep, completeEffect_completing s inp.atn⟩

/-- Settles O24, by the bit index. -/
theorem clockLowEndsTheReleaseWait : Obligations.ClockLowEndsTheReleaseWait := by
  intro s inp hst hclk htime
  have hrule : decodeRule s.rx.st inp (s.pulseOver inp.now) = .stepBitReleaseClk0 inp.atn inp.now := by
    simp [hst, decodeRule_bitRelease, hclk]
  refine ⟨fun hlt => ⟨s.rx.idx + 1, toNat_succ_of_lt_seven hlt, ?_⟩, fun hi hhead => ?_⟩
  · exact exec_rule_and_step htime hrule (execStepBitReleaseClk0_of_lt hlt)
  · exact exec_completion_and_step htime hrule (execStepBitReleaseClk0_of_seven hi) hhead

/-- Settles O25: only a timeout at bit 7 completes. -/
theorem clockHighContinuesTheReleaseWait : Obligations.ClockHighContinuesTheReleaseWait := by
  intro s inp hst hclk htime
  have hrule : decodeRule s.rx.st inp (s.pulseOver inp.now) = .stepBitReleaseClk1 inp.atn inp.now := by
    rw [hst, decodeRule_bitRelease, if_pos hclk]
  refine ⟨fun hopen => exec_rule_and_step htime hrule ?_, fun hi ht hhead => ?_⟩
  · split
    · next ht =>
      have hlt : s.rx.idx < 7 := hopen.resolve_right (Nat.not_le.2 ht)
      exact execStepBitReleaseClk1_of_lt (State.timedOut_eq_true.2 ht) hlt
    · next ht => exact if_neg (mt State.timedOut_eq_true.1 ht)
  · exact exec_completion_and_step htime hrule (execStepBitReleaseClk1_of_seven (State.timedOut_eq_true.2 ht) hi) hhead

/-- Where the rule of FRAME ran: in bit 7's release wait, at CLOCK 0 or past the timeout. -/
theorem RuleOutcome.cause_of_frame {inp : StepIn} {s t : State} (h : RuleOutcome inp s t)
    (hev : t.ev.kind = .frame) :
    s.rx.st = Code.bitRelease ∧ s.rx.idx = 7 ∧ (inp.clk = false ∨ s.timedOut inp.now = true) := by
  cases h with
  | completed hst hi hend => exact ⟨hst, hi, hend⟩
  | _ => cases hev

/-- Settles O26: FRAME is the event of a completion alone. -/
theorem completionPushesTheAssembledFrame : Obligations.CompletionPushesTheAssembledFrame := by
  intro s t inp h hev
  obtain ⟨-, hrule⟩ := execStep_next_iff_outcome.1 h
  obtain ⟨hst, hi, hend⟩ := hrule.cause_of_frame hev
  obtain ⟨rfl, -⟩ := hrule.of_frame hev
  exact ⟨hst, hi, hend.imp_right State.timedOut_eq_true.1, completeEffect_completing s.stepped inp.atn⟩

/-- Settles O14: the rule answers, and a FRAME is the PUSH of its completion. -/
theorem stepCompletesInEveryLegalState : Obligations.StepCompletesInEveryLegalState := by
  intro s inp htime hlegal hhead
  obtain ⟨t, hrun⟩ : IsNext (runRule inp s.stepped) := runRule_isNext hlegal hhead
  have hrule := runRule_outcome hrun
  obtain ⟨hcfg, hreply, hclock, hlast, hops⟩ := hrule.sameOutside
  obtain ⟨htail, hepoch⟩ := hrule.keeps_tail
  refine ⟨t, (execStep_of_meets htime).trans hrun, hrule.legal hlegal, hcfg, hreply, hclock, hlast, hops, htail, hepoch,
    hrule.fs_eq_of_not_frame, fun hev => ?_⟩
  obtain ⟨rfl, -⟩ := hrule.of_frame hev
  exact pushEffect_pushed (s.stepped.completing inp.atn) _

/-! ### Abort -/

/-- What the rule of a timeout left: `st` at IDLE, DATA released where the EOI pulse drove it, and the event of its
wait. -/
theorem RuleOutcome.of_timeout {inp : StepIn} {s t : State} (h : RuleOutcome inp s t)
    (hev : t.ev.kind = .startTimeout ∨ t.ev.kind = .bitTimeout) :
    t = s.rxDone
      { s.rx with st := Code.idle, dataPull := if s.rx.st = Code.eoiAck then false else s.rx.dataPull }
      { kind := t.ev.kind, index := if t.ev.kind = .bitTimeout then s.rx.idx else 0
        phase := if s.rx.st = Code.bitRelease then 1 else 0, frame := 0 } := by
  cases h with
  | startTimeout hst | pulseAborted hst | readyTimeout hst | releaseTimeout hst => simp [hst, State.abortSession]
  | _ => simp at hev

/-- Settles O31: an abort writes the registers and the event, so every reading of the frame store is as it was. -/
theorem abortLeavesNoTraceInTheStore : Obligations.AbortLeavesNoTraceInTheStore := by
  intro s t inp h hev
  obtain ⟨-, hrule⟩ := execStep_next_iff_outcome.1 h
  rw [hrule.of_timeout hev]
  exact ⟨rfl, rfl, rfl, rfl, rfl, rfl, rfl⟩

end Sys2Proof.Machine
end

section
/-! PROOF. What one step of the machine does to the receiver, and two invariants over it: what ends a session and what
drives DATA (40_receiver.md R84, R87). -/

namespace Sys2Proof.Machine

/-! ### One step, for the receiver -/

/-- The state in which the rule of a STEP issued at `time` runs: the issue taken, the time noted. -/
def State.stepAt (s : State) (time : Nat) (rest : List Issue) : State := (s.issuedAt time rest).stepped

/-- Everything a step of the machine can do to the receiver: nothing, where no STEP and no RESET is next; a RESET; or
the rule of a STEP. -/
inductive StepOutcome (s t : State) : Prop
  | kept : s.nextIsReset = false → s.nextStepIn = none → t.rx = s.rx → t.cfg = s.cfg → t.lastStep = s.lastStep →
      StepOutcome s t
  | reset : s.nextIsReset = true → s.nextStepIn = none → t.rx = RxState.reset → t.ev = Event.nothing → StepOutcome s t
  | ran (inp : StepIn) (time : Nat) (rest : List Issue) : s.nextIsReset = false → s.nextStepIn = some inp →
      RuleOutcome inp (s.stepAt time rest) t → StepOutcome s t

theorem step_outcome {s t : State} (h : step s = .next t) : StepOutcome s t := by
  obtain ⟨hfetch, rfl⟩ | ⟨i, u, hfetch, hexec⟩ := step_next_iff.1 h
  · exact .kept (by simp [State.nextIsReset, hfetch]) (by simp [State.nextStepIn, hfetch]) rfl rfl rfl
  · obtain ⟨hport, time, rest, rfl, -⟩ := fetch_run hfetch
    cases i with
    | step inp =>
      obtain ⟨-, hrule⟩ := execStep_next_iff_outcome.1 hexec
      exact .ran inp time rest (by simp [State.nextIsReset, hfetch]) (by simp [State.nextStepIn, hfetch]) hrule
    | read | write =>
      cases hexec
      exact .kept (by simp [State.nextIsReset, hfetch]) (by simp [State.nextStepIn, hfetch]) rfl rfl rfl
    | reset =>
      cases hexec
      exact .reset (by simp [State.nextIsReset, hfetch]) (by simp [State.nextStepIn, hfetch]) rfl rfl
    | reserved4to7 | reserved8toF => cases hexec
    | _ => cases hport

/-! ### The end of a session -/

/-- A rule that emits NONE does not leave a session. -/
theorem RuleOutcome.event_of_session_end {inp : StepIn} {s t : State} (h : RuleOutcome inp s t)
    (hs : s.rx.st ≠ Code.idle) (ht : t.rx.st = Code.idle) : t.ev.kind ≠ .none := by
  cases h with
  | waited => exact absurd ht hs
  | started hst => exact absurd hst hs
  | went | pulseBegan | pulseEnded | ready | sample | nextBit => cases ht
  | startTimeout | pulseAborted | readyTimeout | releaseTimeout | completed => exact nofun

/-- Settles O32. -/
theorem onlyItsOwnStepOrResetEndsASession : Obligations.OnlyItsOwnStepOrResetEndsASession := by
  intro s t h hs ht
  cases step_outcome h with
  | kept _ _ hrx => exact absurd (hrx ▸ ht) hs
  | reset hreset _ _ hev => exact .inl ⟨hreset, hev⟩
  | ran inp time rest _ hin hrule => exact .inr ⟨by simp [hin], hrule.event_of_session_end hs ht⟩

/-! ### The DATA drive -/

/-- Whether the last session since RESET completed, after a STEP that emits `k` (40_receiver.md R84). -/
def completedBy (k : EventKind) (before : Bool) : Bool :=
  match k with
  | .none => before
  | .frame => true
  | .startTimeout | .bitTimeout => false

theorem completedAfter_of_kept {s t : State} {b : Bool} (hr : s.nextIsReset = false) (hin : s.nextStepIn = none) :
    completedAfter s t b = b := by
  simp [completedAfter, hr, hin]

theorem completedAfter_of_step {s t : State} {b : Bool} {inp : StepIn} (hr : s.nextIsReset = false)
    (hin : s.nextStepIn = some inp) : completedAfter s t b = completedBy t.ev.kind b := by
  cases hk : t.ev.kind <;> simp [completedAfter, hr, hin, hk, completedBy]

theorem dataPullExact_iff_of_idle {s : State} {b : Bool} (h : s.rx.st = Code.idle) :
    DataPullExact s b ↔ (s.rx.dataPull = true ↔ b = true) := by
  simp [DataPullExact, h]

theorem dataPullExact_iff_of_eoiAck {s : State} {b : Bool} (h : s.rx.st = Code.eoiAck) :
    DataPullExact s b ↔ s.rx.dataPull = true := by
  simp [DataPullExact, h]

/-- Outside IDLE and EOI_ACK, where a session waits for the talker's CLOCK and DATA, DATA is released. -/
theorem dataPullExact_iff_of_released {s : State} {b : Bool} (hi : s.rx.st ≠ Code.idle) (he : s.rx.st ≠ Code.eoiAck) :
    DataPullExact s b ↔ s.rx.dataPull = false := by
  simp [DataPullExact, hi, he]

/-- Each rule keeps R84: a wait of the session stays released, the pulse drives, and IDLE is reached by an abort with
DATA released or by a completion that drives it. -/
theorem RuleOutcome.dataPullExact {inp : StepIn} {s t : State} {b : Bool} (h : RuleOutcome inp s t)
    (hs : DataPullExact s b) : DataPullExact t (completedBy t.ev.kind b) := by
  have released (hi : s.rx.st ≠ Code.idle) (he : s.rx.st ≠ Code.eoiAck) : s.rx.dataPull = false :=
    (dataPullExact_iff_of_released hi he).1 hs
  cases h with
  | waited => exact hs
  | started | pulseEnded => exact (dataPullExact_iff_of_released (by simp) (by simp)).2 rfl
  | pulseBegan => exact (dataPullExact_iff_of_eoiAck rfl).2 rfl
  | went hst | ready hst | sample hst | nextBit hst =>
    exact (dataPullExact_iff_of_released (by simp) (by simp)).2 (released (by simp [hst]) (by simp [hst]))
  | startTimeout hst | readyTimeout hst | releaseTimeout hst =>
    refine (dataPullExact_iff_of_idle rfl).2 ?_
    simp [released, hst, completedBy]
  | pulseAborted | completed => exact (dataPullExact_iff_of_idle rfl).2 (by simp [completedBy])

/-- Settles O55: RESET releases DATA and forgets the completion, a rule of STEP keeps R84 by its event, and no other
operation writes the receiver. -/
theorem dataDriveInvariant : Obligations.DataDriveInvariant := by
  refine ⟨(dataPullExact_iff_of_idle rfl).2 Iff.rfl, fun s t b hs h => ?_⟩
  cases step_outcome h with
  | kept hr hin hrx =>
    rw [completedAfter_of_kept hr hin]
    simpa [DataPullExact, hrx] using hs
  | reset hr _ hrx => simp [DataPullExact, hrx, RxState.reset, completedAfter, hr]
  | ran inp time rest hr hin hrule =>
    rw [completedAfter_of_step hr hin]
    exact hrule.dataPullExact hs

end Sys2Proof.Machine
end

section
/-! PROOF. Bit ordering (40_receiver.md R85): the accumulator holds the DATA levels of the session's bit periods, least
significant bit first, and a completion pushes them. -/

namespace Sys2Proof.Machine

/-! ### The levels the accumulator holds -/

/-- `acc` holds `ls`, least significant bit first, and nothing above. -/
def HoldsLevels (acc : BitVec 8) (ls : List Bool) : Prop := ∀ j, acc.getLsbD j = ls.getD j false

theorem HoldsLevels.zero : HoldsLevels 0x00 [] := fun _ => BitVec.getLsbD_zero

/-- A sample in the bit period after those of `ls` appends its level. -/
theorem HoldsLevels.sampled {acc : BitVec 8} {ls : List Bool} (h : HoldsLevels acc ls) {i : BitVec 3}
    (hi : ls.length = i.toNat) (d : Bool) : HoldsLevels (sampled acc i d) (ls ++ [d]) := by
  intro j
  rw [sampled_getLsbD, h j, ← hi]
  obtain hlt | rfl | hgt := Nat.lt_trichotomy j ls.length
  · simp [List.getElem?_append_left hlt, hlt.ne]
  · simp
  · have hlen : (ls ++ [d]).length ≤ j := by simpa using hgt
    simp [List.getElem?_eq_none hlen, List.getElem?_eq_none hgt.le, hgt.ne']

theorem levelsSeen_of_idle {s : State} {ls : List Bool} (h : s.rx.st = Code.idle) : LevelsSeen s ls :=
  fun hne => absurd h hne

section
variable {s : State} {ls : List Bool}

/-- Before the first bit period no level has been seen. -/
theorem levelsSeen_iff_of_start (h : s.rx.st = Code.waitStart ∨ s.rx.st = Code.eoiAck) :
    LevelsSeen s ls ↔ HoldsLevels s.rx.acc ls ∧ ls.length = 0 := by
  obtain h | h := h <;> simp [LevelsSeen, HoldsLevels, h]

/-- Before the sample of bit period `idx` the levels of the earlier periods have been seen. -/
theorem levelsSeen_iff_of_unsampled (h : s.rx.st = Code.bitReady ∨ s.rx.st = Code.bitSample) :
    LevelsSeen s ls ↔ HoldsLevels s.rx.acc ls ∧ ls.length = s.rx.idx.toNat := by
  obtain h | h := h <;> simp [LevelsSeen, HoldsLevels, h]

theorem levelsSeen_iff_of_bitRelease (h : s.rx.st = Code.bitRelease) :
    LevelsSeen s ls ↔ HoldsLevels s.rx.acc ls ∧ ls.length = s.rx.idx.toNat + 1 := by
  simp [LevelsSeen, HoldsLevels, h]

end

/-- The levels seen, after a STEP with DATA at `data` from a state with code `st` (40_receiver.md R85). -/
def levelsBy (st : BitVec 3) (data : Bool) (ls : List Bool) : List Bool :=
  if st = Code.idle then [] else if st = Code.bitSample then ls ++ [data] else ls

section
variable {s : State} {ls : List Bool} {st : BitVec 3} {data : Bool}

theorem levelsAfter_of_kept (hin : s.nextStepIn = none) : levelsAfter s ls = ls := by
  simp [levelsAfter, hin]

theorem levelsAfter_of_step {inp : StepIn} (hin : s.nextStepIn = some inp) :
    levelsAfter s ls = levelsBy s.rx.st inp.data ls := by
  simp [levelsAfter, hin, levelsBy]

theorem levelsBy_of_idle (h : st = Code.idle) : levelsBy st data ls = [] := if_pos h

theorem levelsBy_of_bitSample (h : st = Code.bitSample) : levelsBy st data ls = ls ++ [data] := by
  simp [levelsBy, h]

theorem levelsBy_of_other {c : BitVec 3} (h : st = c) (hi : c ≠ Code.idle) (hb : c ≠ Code.bitSample) :
    levelsBy st data ls = ls := by
  simp [levelsBy, h, hi, hb]

end

/-! ### Every step -/

/-- A wait leaves IDLE or a state of the session other than BIT_SAMPLE. -/
theorem RuleOutcome.levelsSeen {s t : State} {inp : StepIn} {ls : List Bool} (h : RuleOutcome inp s t)
    (hs : LevelsSeen s ls) : LevelsSeen t (levelsBy s.rx.st inp.data ls) := by
  cases h with
  | waited hwait =>
    by_cases hi : s.rx.st = Code.idle
    · exact levelsSeen_of_idle hi
    · have hb : s.rx.st ≠ Code.bitSample := by
        intro hb
        simp [hb] at hwait
      rw [levelsBy_of_other rfl hi hb]
      exact hs
  | started hst =>
    rw [levelsBy_of_idle hst]
    exact (levelsSeen_iff_of_start (.inl rfl)).2 ⟨.zero, rfl⟩
  | went hst =>
    rw [levelsBy_of_other hst (by simp) (by simp)]
    exact (levelsSeen_iff_of_unsampled (.inl rfl)).2 ((levelsSeen_iff_of_start (.inl hst)).1 hs)
  | pulseBegan hst =>
    rw [levelsBy_of_other hst (by simp) (by simp)]
    exact (levelsSeen_iff_of_start (.inr rfl)).2 ((levelsSeen_iff_of_start (.inl hst)).1 hs)
  | pulseEnded hst =>
    rw [levelsBy_of_other hst (by simp) (by simp)]
    exact (levelsSeen_iff_of_start (.inl rfl)).2 ((levelsSeen_iff_of_start (.inr hst)).1 hs)
  | ready hst =>
    rw [levelsBy_of_other hst (by simp) (by simp)]
    exact (levelsSeen_iff_of_unsampled (.inr rfl)).2 ((levelsSeen_iff_of_unsampled (.inl hst)).1 hs)
  | sample hst =>
    obtain ⟨hacc, hlen⟩ := (levelsSeen_iff_of_unsampled (.inr hst)).1 hs
    rw [levelsBy_of_bitSample hst]
    exact (levelsSeen_iff_of_bitRelease rfl).2 ⟨hacc.sampled hlen _, by simp [hlen]⟩
  | nextBit hst _ hlt =>
    obtain ⟨hacc, hlen⟩ := (levelsSeen_iff_of_bitRelease hst).1 hs
    rw [levelsBy_of_other hst (by simp) (by simp)]
    exact (levelsSeen_iff_of_unsampled (.inl rfl)).2 ⟨hacc, hlen.trans (toNat_succ_of_lt_seven hlt).symm⟩
  | startTimeout | pulseAborted | readyTimeout | releaseTimeout | completed => exact levelsSeen_of_idle rfl

theorem step_levelsSeen {s t : State} {ls : List Bool} (hs : LevelsSeen s ls) (h : step s = .next t) :
    LevelsSeen t (levelsAfter s ls) := by
  cases step_outcome h with
  | kept _ hin hrx =>
    rw [levelsAfter_of_kept hin]
    simpa [LevelsSeen, hrx] using hs
  | reset _ _ hrx => exact levelsSeen_of_idle (hrx ▸ rfl)
  | ran inp time rest _ hin hrule =>
    rw [levelsAfter_of_step hin]
    exact hrule.levelsSeen hs

/-- The frame of a completion, in the session's levels. -/
theorem RuleOutcome.frame_levels {s t : State} {inp : StepIn} {ls : List Bool} (h : RuleOutcome inp s t)
    (hev : t.ev.kind = .frame) (hs : LevelsSeen s ls) :
    ls.length = 8 ∧ (∀ j (h : j < ls.length), t.ev.frame.getLsbD j = ls[j]) ∧
      t.readSlot s.fs.head = t.ev.frame := by
  obtain ⟨hst, hi, -⟩ := h.cause_of_frame hev
  obtain ⟨hacc, hlen⟩ := (levelsSeen_iff_of_bitRelease hst).1 hs
  have hlen : ls.length = 8 := by rw [hlen, hi]; rfl
  obtain ⟨rfl, -⟩ := h.of_frame hev
  obtain ⟨hslot, -⟩ := pushEffect_pushed (s.completing inp.atn) (s.frameOf inp.atn)
  refine ⟨hlen, fun j hj => ?_, hslot⟩
  calc (s.frameOf inp.atn).getLsbD j
    _ = s.rx.acc.getLsbD j := by rw [State.frameOf, frameWord_getLsbD, if_pos (hlen ▸ hj)]
    _ = ls.getD j false := hacc j
    _ = ls[j] := List.getD_eq_getElem _ _ hj

/-- Settles O56. -/
theorem bitOrdering : Obligations.BitOrdering := by
  intro s t ls hs h
  refine ⟨step_levelsSeen hs h, fun hin hev => ?_⟩
  cases step_outcome h with
  | kept _ hnone | reset _ hnone => simp [hnone] at hin
  | ran inp time rest _ _ hrule => exact hrule.frame_levels (s := s.stepAt time rest) hev hs

end Sys2Proof.Machine
end

section
/-! PROOF. The length of a session (40_receiver.md R86): where each STEP of a session stands in true time, from which
the bound follows. -/

namespace Sys2Proof.Machine

/-! ### Where a state of a session stands -/

/-- The last STEP was at `l`, and the anchor register stands for `g`'s anchor, between the session start and `l`. -/
def AnchoredAt (s : State) (g : Times) (l : Nat) : Prop :=
  s.lastStep = some l ∧ g.start ≤ g.anchor ∧ g.anchor ≤ l ∧ s.rx.tAnchor = g.anchor % s.cfg.timeMod

/-- How long after the session start a STEP of the start wait comes at the latest: after the pulse, one gap past its
limit and the pulse's. -/
def State.startBy (s : State) (G : Nat) : Nat :=
  if s.rx.eoi = true then s.cfg.timeoutUs + s.cfg.eoiPulseUs + G else s.cfg.timeoutUs

theorem State.timeoutUs_le_startBy (s : State) (G : Nat) : s.cfg.timeoutUs ≤ s.startBy G := by
  unfold State.startBy
  split <;> omega

theorem State.startBy_le (s : State) (G : Nat) : s.startBy G ≤ s.cfg.timeoutUs + s.cfg.eoiPulseUs + G := by
  unfold State.startBy
  split <;> omega

theorem State.startBy_of_no_eoi {s : State} (h : s.rx.eoi = false) (G : Nat) : s.startBy G = s.cfg.timeoutUs := by
  simp [State.startBy, h]

theorem State.startBy_of_eoi {s : State} (h : s.rx.eoi = true) (G : Nat) :
    s.startBy G = s.cfg.timeoutUs + s.cfg.eoiPulseUs + G := if_pos h

/-- How long after the session start the ready wait of bit period `idx` begins at the latest, with gaps of at most
`G`: the start wait and its pulse, then two waits and three gaps for each bit. -/
def State.readyBy (s : State) (G : Nat) : Nat :=
  s.cfg.timeoutUs + s.cfg.eoiPulseUs + 2 * G + s.rx.idx.toNat * (2 * s.cfg.timeoutUs + 3 * G)

section
variable {G : Nat} {s : State} {g : Times}

theorem sessionTimes_of_idle (h : s.rx.st = Code.idle) : SessionTimes G s g := fun hne => absurd h hne

theorem sessionTimes_iff_of_waitStart (h : s.rx.st = Code.waitStart) :
    SessionTimes G s g ↔ ∃ l, AnchoredAt s g l ∧ g.anchor = g.start ∧ l ≤ g.start + s.startBy G := by
  simp [SessionTimes, AnchoredAt, State.startBy, h, and_assoc]

theorem sessionTimes_iff_of_eoiAck (h : s.rx.st = Code.eoiAck) :
    SessionTimes G s g ↔ ∃ l, AnchoredAt s g l ∧ s.rx.eoi = true ∧ g.anchor = g.start ∧
      s.rx.tPulse = g.pulse % s.cfg.timeMod ∧ g.start ≤ g.pulse ∧ g.pulse ≤ l ∧ l ≤ g.pulse + s.cfg.eoiPulseUs ∧
      g.pulse ≤ g.start + (if s.rx.abort = true then s.cfg.timeoutUs + G else s.cfg.timeoutUs) := by
  simp [SessionTimes, AnchoredAt, h, and_assoc]

theorem sessionTimes_iff_of_bitReady (h : s.rx.st = Code.bitReady) :
    SessionTimes G s g ↔ ∃ l, AnchoredAt s g l ∧ l ≤ g.anchor + s.cfg.timeoutUs ∧ g.anchor ≤ g.start + s.readyBy G := by
  simp [SessionTimes, AnchoredAt, State.readyBy, h, and_assoc]

theorem sessionTimes_iff_of_bitSample (h : s.rx.st = Code.bitSample) :
    SessionTimes G s g ↔ ∃ l, AnchoredAt s g l ∧ l ≤ g.start + (s.readyBy G + s.cfg.timeoutUs + G) := by
  simp [SessionTimes, AnchoredAt, State.readyBy, h, and_assoc]

theorem sessionTimes_iff_of_bitRelease (h : s.rx.st = Code.bitRelease) :
    SessionTimes G s g ↔ ∃ l, AnchoredAt s g l ∧ l ≤ g.anchor + s.cfg.timeoutUs ∧
      g.anchor ≤ g.start + (s.readyBy G + s.cfg.timeoutUs + 2 * G) := by
  simp [SessionTimes, AnchoredAt, State.readyBy, h, and_assoc]

end

/-! ### The time of a STEP -/

/-- What the true time `c` of a STEP with input `now` is to its session: at most `G` after the last STEP, and not past
the end of a wait or a pulse that the STEP finds running. -/
structure StepTime (G : Nat) (s : State) (g : Times) (now c : Nat) : Prop where
  residue : c % s.cfg.timeMod = now
  gap : ∀ l, s.lastStep = some l → l ≤ c ∧ c ≤ l + G
  waiting : s.rx.st = Code.waitStart ∨ s.rx.st = Code.bitReady ∨ s.rx.st = Code.bitRelease →
    s.timedOut now = false → c ≤ g.anchor + s.cfg.timeoutUs
  pulsing : s.rx.st = Code.eoiAck → s.pulseOver now = false → c ≤ g.pulse + s.cfg.eoiPulseUs

/-- Under short gaps the times a rule compares are true times. -/
theorem step_stepTime {G : Nat} {s t : State} {g : Times} {inp : StepIn} (hs : SessionTimes G s g)
    (hin : s.nextStepIn = some inp) (h : step s = .next t) (hgap : GapWithin G s t)
    (hsmall : s.cfg.timeoutUs + s.cfg.eoiPulseUs + 2 * G < s.cfg.timeMod) : StepTime G s g inp.now t.clock := by
  obtain ⟨hnow, hlast⟩ := step_times hin h
  obtain ⟨hanchor, hpulse⟩ := elapsedIsTrueTimeUnderShortGaps G s t g inp hs hin h hgap hsmall
  refine ⟨hnow, fun l hl => ⟨hlast l hl, hgap l (by simp [hin]) hl⟩, fun hst ht => ?_, fun hst hp => ?_⟩
  · have helapsed : s.sinceAnchor inp.now ≤ s.cfg.timeoutUs := State.timedOut_eq_false.1 ht
    have htrue : s.sinceAnchor inp.now = t.clock - g.anchor := hanchor hst
    omega
  · have helapsed : s.sincePulse inp.now < s.cfg.eoiPulseUs := State.pulseOver_eq_false.1 hp
    have htrue : s.sincePulse inp.now = t.clock - g.pulse := hpulse hst
    omega

/-! ### The true times after a STEP -/

/-- The true times after a STEP at `c` from state code `st` to `st'` (40_receiver.md R72, R73, R74, R78, R79). -/
def timesBy (st st' : BitVec 3) (c : Nat) (g : Times) : Times :=
  if st = Code.idle then { g with start := c, anchor := c }
  else if st = Code.waitStart ∧ st' = Code.eoiAck then { g with pulse := c }
  else if st = Code.bitSample ∨ (st ≠ Code.bitReady ∧ st' = Code.bitReady) then { g with anchor := c }
  else g

theorem timesAfter_of_kept {s t : State} {g : Times} (hin : s.nextStepIn = none) : timesAfter s t g = g := by
  simp [timesAfter, hin]

theorem timesAfter_of_step {s t : State} {g : Times} {inp : StepIn} (hin : s.nextStepIn = some inp) :
    timesAfter s t g = timesBy s.rx.st t.rx.st t.clock g := by
  simp [timesAfter, hin, timesBy]

section
variable {st st' : BitVec 3} {c : Nat} {g : Times}

theorem timesBy_of_idle (h : st = Code.idle) : timesBy st st' c g = { g with start := c, anchor := c } := if_pos h

theorem timesBy_of_pulse_start (h : st = Code.waitStart) : timesBy st Code.eoiAck c g = { g with pulse := c } := by
  simp [timesBy, h]

theorem timesBy_of_bitSample (h : st = Code.bitSample) : timesBy st st' c g = { g with anchor := c } := by
  simp [timesBy, h]

theorem timesBy_of_ready_start (h : st = Code.waitStart ∨ st = Code.bitRelease) :
    timesBy st Code.bitReady c g = { g with anchor := c } := by
  obtain h | h := h <;> simp [timesBy, h]

theorem timesBy_of_pulse_end (h : st = Code.eoiAck) : timesBy st Code.waitStart c g = g := by
  simp [timesBy, h]

theorem timesBy_of_ready_end (h : st = Code.bitReady) : timesBy st st' c g = g := by
  simp [timesBy, h]

theorem timesBy_of_wait {w : BitVec 3} (h : st = w) (hi : w ≠ Code.idle) (hb : w ≠ Code.bitSample) :
    timesBy st st c g = g := by
  subst h
  by_cases hw : st = Code.waitStart <;> simp [timesBy, hi, hb, hw]

end

/-! ### Every rule -/

section
variable {G : Nat} {s t : State} {g : Times} {inp : StepIn} {c l : Nat} {rest : List Issue} {r : RxState}

theorem AnchoredAt.start_le (h : AnchoredAt s g l) : g.start ≤ l := by
  obtain ⟨-, hstart, hanchor, -⟩ := h
  exact hstart.trans hanchor

/-- A STEP at `c` that keeps the anchor. -/
theorem AnchoredAt.kept (h : AnchoredAt s g l) (hle : l ≤ c) (hr : r.tAnchor = s.rx.tAnchor) :
    AnchoredAt ((s.stepAt c rest).rxNext r) g c := by
  obtain ⟨-, hstart, hanchor, hreg⟩ := h
  exact ⟨rfl, hstart, hanchor.trans hle, hr.trans hreg⟩

/-- A STEP at `c` that anchors the next wait. -/
theorem AnchoredAt.moved (h : AnchoredAt s g l) (hle : l ≤ c) (hr : r.tAnchor = c % s.cfg.timeMod) :
    AnchoredAt ((s.stepAt c rest).rxNext r) { g with anchor := c } c :=
  ⟨rfl, h.start_le.trans hle, le_rfl, hr⟩

theorem AnchoredAt.gap (h : AnchoredAt s g l) (hc : StepTime G s g inp.now c) : l ≤ c ∧ c ≤ l + G := by
  obtain ⟨hl, -⟩ := h
  exact hc.gap l hl

theorem SessionTimes.waited_waitStart (hs : SessionTimes G s g) (hc : StepTime G s g inp.now c)
    (hst : s.rx.st = Code.waitStart) (ht : s.timedOut inp.now = false) :
    SessionTimes G ((s.stepAt c rest).rxNext s.rx) g := by
  obtain ⟨l, hat, heq, -⟩ := (sessionTimes_iff_of_waitStart hst).1 hs
  obtain ⟨hle, -⟩ := hat.gap hc
  have hwait : c ≤ g.anchor + s.cfg.timeoutUs := hc.waiting (.inl hst) ht
  have hlate : c ≤ g.start + s.startBy G := by
    have hlimit := s.timeoutUs_le_startBy G
    omega
  exact Iff.mpr (sessionTimes_iff_of_waitStart hst) ⟨c, hat.kept hle rfl, heq, hlate⟩

theorem SessionTimes.waited_eoiAck (hs : SessionTimes G s g) (hc : StepTime G s g inp.now c)
    (hst : s.rx.st = Code.eoiAck) (hp : s.pulseOver inp.now = false) :
    SessionTimes G ((s.stepAt c rest).rxNext s.rx) g := by
  obtain ⟨l, hat, heoi, heq, hreg, hstart, hpulse, -, hlate⟩ := (sessionTimes_iff_of_eoiAck hst).1 hs
  obtain ⟨hle, -⟩ := hat.gap hc
  exact Iff.mpr (sessionTimes_iff_of_eoiAck hst)
    ⟨c, hat.kept hle rfl, heoi, heq, hreg, hstart, hpulse.trans hle, hc.pulsing hst hp, hlate⟩

theorem SessionTimes.waited_bitReady (hs : SessionTimes G s g) (hc : StepTime G s g inp.now c)
    (hst : s.rx.st = Code.bitReady) (ht : s.timedOut inp.now = false) :
    SessionTimes G ((s.stepAt c rest).rxNext s.rx) g := by
  obtain ⟨l, hat, -, hlate⟩ := (sessionTimes_iff_of_bitReady hst).1 hs
  obtain ⟨hle, -⟩ := hat.gap hc
  exact Iff.mpr (sessionTimes_iff_of_bitReady hst) ⟨c, hat.kept hle rfl, hc.waiting (.inr (.inl hst)) ht, hlate⟩

theorem SessionTimes.waited_bitRelease (hs : SessionTimes G s g) (hc : StepTime G s g inp.now c)
    (hst : s.rx.st = Code.bitRelease) (ht : s.timedOut inp.now = false) :
    SessionTimes G ((s.stepAt c rest).rxNext s.rx) g := by
  obtain ⟨l, hat, -, hlate⟩ := (sessionTimes_iff_of_bitRelease hst).1 hs
  obtain ⟨hle, -⟩ := hat.gap hc
  exact Iff.mpr (sessionTimes_iff_of_bitRelease hst) ⟨c, hat.kept hle rfl, hc.waiting (.inr (.inr hst)) ht, hlate⟩

theorem SessionTimes.started (hc : StepTime G s g inp.now c) :
    SessionTimes G
      ((s.stepAt c rest).rxNext { s.rx with dataPull := false, tAnchor := inp.now, eoi := false, abort := false
                                            idx := 0, acc := 0x00, st := Code.waitStart })
      { g with start := c, anchor := c } :=
  Iff.mpr (sessionTimes_iff_of_waitStart rfl)
    ⟨c, ⟨rfl, le_rfl, le_rfl, hc.residue.symm⟩, rfl, Nat.le_add_right _ _⟩

/-- The ready wait of bit 0 begins: the start wait with its pulse is over one gap after its limit. -/
theorem SessionTimes.went (hs : SessionTimes G s g) (hc : StepTime G s g inp.now c)
    (hst : s.rx.st = Code.waitStart) :
    SessionTimes G ((s.stepAt c rest).rxNext { s.rx with idx := 0, tAnchor := inp.now, st := Code.bitReady })
      { g with anchor := c } := by
  obtain ⟨l, hat, -, hlate⟩ := (sessionTimes_iff_of_waitStart hst).1 hs
  obtain ⟨hle, hgap⟩ := hat.gap hc
  refine Iff.mpr (sessionTimes_iff_of_bitReady rfl) ⟨c, hat.moved hle hc.residue.symm, Nat.le_add_right _ _, ?_⟩
  show c ≤ g.start + (s.cfg.timeoutUs + s.cfg.eoiPulseUs + 2 * G + 0 * _)
  have hlimit := s.startBy_le G
  omega

/-- The pulse begins in the first part of the start wait, which has `eoi = 0`. -/
theorem SessionTimes.pulseBegan (hs : SessionTimes G s g) (hc : StepTime G s g inp.now c)
    (hst : s.rx.st = Code.waitStart) (heoi : s.rx.eoi = false) :
    SessionTimes G ((s.stepAt c rest).rxNext { s.rx with eoi := true, abort := s.timedOut inp.now, dataPull := true
                                                         tPulse := inp.now, st := Code.eoiAck })
      { g with pulse := c } := by
  obtain ⟨l, hat, heq, hlate⟩ := (sessionTimes_iff_of_waitStart hst).1 hs
  obtain ⟨hle, hgap⟩ := hat.gap hc
  rw [State.startBy_of_no_eoi heoi] at hlate
  refine Iff.mpr (sessionTimes_iff_of_eoiAck rfl) ⟨c, hat.kept hle rfl, rfl, heq, hc.residue.symm,
    hat.start_le.trans hle, le_rfl, Nat.le_add_right _ _, ?_⟩
  show c ≤ g.start + if s.timedOut inp.now = true then s.cfg.timeoutUs + G else s.cfg.timeoutUs
  split
  · omega
  · next ht =>
    have hwait : c ≤ g.anchor + s.cfg.timeoutUs := hc.waiting (.inl hst) (by simpa using ht)
    omega

/-- The pulse that aborts nothing began within the start wait's limit. -/
theorem SessionTimes.pulseEnded (hs : SessionTimes G s g) (hc : StepTime G s g inp.now c)
    (hst : s.rx.st = Code.eoiAck) (habort : s.rx.abort = false) :
    SessionTimes G ((s.stepAt c rest).rxNext { s.rx with dataPull := false, st := Code.waitStart }) g := by
  obtain ⟨l, hat, heoi, heq, -, -, -, hl, hlate⟩ := (sessionTimes_iff_of_eoiAck hst).1 hs
  obtain ⟨hle, hgap⟩ := hat.gap hc
  have hlate : g.pulse ≤ g.start + s.cfg.timeoutUs := by simpa [habort] using hlate
  have hlimit : c ≤ g.start + s.startBy G := by
    rw [State.startBy_of_eoi heoi]
    omega
  exact Iff.mpr (sessionTimes_iff_of_waitStart rfl) ⟨c, hat.kept hle rfl, heq, hlimit⟩

theorem SessionTimes.ready (hs : SessionTimes G s g) (hc : StepTime G s g inp.now c) (hst : s.rx.st = Code.bitReady) :
    SessionTimes G ((s.stepAt c rest).rxNext { s.rx with st := Code.bitSample }) g := by
  obtain ⟨l, hat, hl, hlate⟩ := (sessionTimes_iff_of_bitReady hst).1 hs
  obtain ⟨hle, hgap⟩ := hat.gap hc
  refine Iff.mpr (sessionTimes_iff_of_bitSample rfl) ⟨c, hat.kept hle rfl, ?_⟩
  show c ≤ g.start + (s.readyBy G + s.cfg.timeoutUs + G)
  omega

theorem SessionTimes.sample (hs : SessionTimes G s g) (hc : StepTime G s g inp.now c) (hst : s.rx.st = Code.bitSample)
    (acc : BitVec 8) :
    SessionTimes G ((s.stepAt c rest).rxNext { s.rx with acc := acc, st := Code.bitRelease, tAnchor := inp.now })
      { g with anchor := c } := by
  obtain ⟨l, hat, hlate⟩ := (sessionTimes_iff_of_bitSample hst).1 hs
  obtain ⟨hle, hgap⟩ := hat.gap hc
  refine Iff.mpr (sessionTimes_iff_of_bitRelease rfl) ⟨c, hat.moved hle hc.residue.symm, Nat.le_add_right _ _, ?_⟩
  show c ≤ g.start + (s.readyBy G + s.cfg.timeoutUs + 2 * G)
  omega

/-- The next ready wait begins two waits and three gaps after the last one did, at the latest. -/
theorem SessionTimes.nextBit (hs : SessionTimes G s g) (hc : StepTime G s g inp.now c)
    (hst : s.rx.st = Code.bitRelease) (hlt : s.rx.idx < 7) :
    SessionTimes G
      ((s.stepAt c rest).rxNext { s.rx with idx := s.rx.idx + 1, tAnchor := inp.now, st := Code.bitReady })
      { g with anchor := c } := by
  obtain ⟨l, hat, hl, hlate⟩ := (sessionTimes_iff_of_bitRelease hst).1 hs
  obtain ⟨hle, hgap⟩ := hat.gap hc
  refine Iff.mpr (sessionTimes_iff_of_bitReady rfl) ⟨c, hat.moved hle hc.residue.symm, Nat.le_add_right _ _, ?_⟩
  show c ≤ g.start + (s.cfg.timeoutUs + s.cfg.eoiPulseUs + 2 * G + (s.rx.idx + 1).toNat * (2 * s.cfg.timeoutUs + 3 * G))
  rw [toNat_succ_of_lt_seven hlt, Nat.add_one_mul s.rx.idx.toNat]
  unfold State.readyBy at hlate
  omega

theorem SessionTimes.of_times_eq {g' : Times} (h : SessionTimes G t g') (hg : g = g') : SessionTimes G t g := hg ▸ h

/-- Every rule keeps the session's place in true time. -/
theorem RuleOutcome.sessionTimes (h : RuleOutcome inp (s.stepAt c rest) t) (hs : SessionTimes G s g)
    (hc : StepTime G s g inp.now c) : SessionTimes G t (timesBy s.rx.st t.rx.st c g) := by
  cases h with
  | waited hwait =>
    obtain ⟨hst, -⟩ | ⟨hst, -, -, ht⟩ | ⟨hst, hp⟩ | ⟨hst, -, ht⟩ | ⟨hst, -, ht⟩ := hwait
    · exact sessionTimes_of_idle hst
    · exact (hs.waited_waitStart hc hst ht).of_times_eq (timesBy_of_wait hst (by simp) (by simp))
    · exact (hs.waited_eoiAck hc hst hp).of_times_eq (timesBy_of_wait hst (by simp) (by simp))
    · exact (hs.waited_bitReady hc hst ht).of_times_eq (timesBy_of_wait hst (by simp) (by simp))
    · exact (hs.waited_bitRelease hc hst ht).of_times_eq (timesBy_of_wait hst (by simp) (by simp))
  | started hst =>
    exact (SessionTimes.started hc).of_times_eq (timesBy_of_idle hst)
  | went hst => exact (hs.went hc hst).of_times_eq (timesBy_of_ready_start (.inl hst))
  | pulseBegan hst _ hdue =>
    obtain ⟨heoi, -⟩ := State.eoiDue_eq_true.1 hdue
    exact (hs.pulseBegan hc hst heoi).of_times_eq (timesBy_of_pulse_start hst)
  | pulseEnded hst _ habort => exact (hs.pulseEnded hc hst habort).of_times_eq (timesBy_of_pulse_end hst)
  | ready hst => exact (hs.ready hc hst).of_times_eq (timesBy_of_ready_end hst)
  | sample hst => exact (hs.sample hc hst _).of_times_eq (timesBy_of_bitSample hst)
  | nextBit hst _ hlt => exact (hs.nextBit hc hst hlt).of_times_eq (timesBy_of_ready_start (.inr hst))
  | startTimeout | pulseAborted | readyTimeout | releaseTimeout | completed => exact sessionTimes_of_idle rfl

/-! ### The bound -/

/-- The last bit period's ready wait begins after at most 15 waits, the pulse and 23 gaps. -/
theorem State.readyBy_le (s : State) (G : Nat) :
    s.readyBy G ≤ 15 * s.cfg.timeoutUs + s.cfg.eoiPulseUs + 23 * G := by
  have hidx : s.rx.idx.toNat ≤ 7 := Nat.lt_succ_iff.1 s.rx.idx.isLt
  have hbits : s.rx.idx.toNat * (2 * s.cfg.timeoutUs + 3 * G) ≤ 7 * (2 * s.cfg.timeoutUs + 3 * G) :=
    Nat.mul_le_mul_right _ hidx
  unfold State.readyBy
  omega

/-- Every STEP of a session, in each of its states. -/
theorem SessionTimes.step_le (hs : SessionTimes G s g) (hc : StepTime G s g inp.now c)
    (hlegal : Code.legal s.rx.st = true) (hne : s.rx.st ≠ Code.idle) :
    c ≤ g.start + (17 * s.cfg.timeoutUs + s.cfg.eoiPulseUs + 26 * G) := by
  have hready := s.readyBy_le G
  obtain hst | hst | hst | hst | hst | hst := Code.legal_iff.1 hlegal
  · exact absurd hst hne
  · obtain ⟨l, hat, -, hlate⟩ := (sessionTimes_iff_of_waitStart hst).1 hs
    obtain ⟨-, hgap⟩ := hat.gap hc
    have hlimit := s.startBy_le G
    omega
  · obtain ⟨l, hat, -, -, -, -, -, hl, hlate⟩ := (sessionTimes_iff_of_eoiAck hst).1 hs
    obtain ⟨-, hgap⟩ := hat.gap hc
    split at hlate <;> omega
  · obtain ⟨l, hat, hl, hlate⟩ := (sessionTimes_iff_of_bitReady hst).1 hs
    obtain ⟨-, hgap⟩ := hat.gap hc
    omega
  · obtain ⟨l, hat, hlate⟩ := (sessionTimes_iff_of_bitSample hst).1 hs
    obtain ⟨-, hgap⟩ := hat.gap hc
    omega
  · obtain ⟨l, hat, hl, hlate⟩ := (sessionTimes_iff_of_bitRelease hst).1 hs
    obtain ⟨-, hgap⟩ := hat.gap hc
    omega

/-- An unused state code runs no rule. -/
theorem RuleOutcome.legal_source (h : RuleOutcome inp s t) : Code.legal s.rx.st = true := by
  by_contra hlegal
  have hrefused := runRule_of_not_legal (inp := inp) (eq_false_of_ne_true hlegal)
  rw [h.runRule_eq] at hrefused
  cases hrefused

end

/-- Settles O57: RESET leaves no session, a rule of STEP keeps its session's times, and no other operation writes the
receiver or the time of the last STEP. -/
theorem sessionLengthIsBounded : Obligations.SessionLengthIsBounded := by
  refine fun G => ⟨fun g => sessionTimes_of_idle rfl, fun s t g hs h hgap hsmall => ?_⟩
  cases step_outcome h with
  | kept _ hin hrx hcfg hlast =>
    refine ⟨?_, fun hstep => by simp [hin] at hstep⟩
    rw [timesAfter_of_kept hin]
    simpa only [SessionTimes, hrx, hcfg, hlast] using hs
  | reset _ hin hrx => exact ⟨sessionTimes_of_idle (hrx ▸ rfl), fun hstep => by simp [hin] at hstep⟩
  | ran inp time rest _ hin hrule =>
    have hc : StepTime G s g inp.now t.clock := step_stepTime hs hin h hgap hsmall
    obtain ⟨-, -, hclock⟩ := hrule.sameOutside.sameEnvironment
    obtain rfl : t.clock = time := hclock
    rw [timesAfter_of_step hin]
    exact ⟨hrule.sessionTimes hs hc, fun _ hne => hs.step_le hc hrule.legal_source hne⟩

end Sys2Proof.Machine
end

section
/-! PROOF. The frame store's own operations (41_ring_buffer.md): what PUSH, AVAILABLE and DRAIN answer, and the store as
a queue over runs of them. The counts need only pointers below N, whatever the memory holds. -/

namespace Sys2Proof.Machine

/-! ### One operation -/

theorem exec_push_of_lt {s : State} (f : Frame) (h : s.fs.head < s.cfg.n) : exec (.push f) s = .next (s.pushed f) :=
  push_of_lt h

/-- Settles O33: PUSH answers `pushed`, whose effect on the store is R88's. -/
theorem pushWritesOneSlot : Obligations.PushWritesOneSlot := fun s f hhead =>
  ⟨s.pushed f, exec_push_of_lt f hhead, pushEffect_pushed s f, rfl, rfl, rfl, rfl, rfl, rfl, rfl⟩

/-- Settles O35: R89's formula is the definition of `available`. -/
theorem availableCountsUnreadFrames : Obligations.AvailableCountsUnreadFrames := fun _ => rfl

/-- Settles O37: the frames a DRAIN copies are the slots from `tail` on. -/
theorem drainCopiesTheOldest : Obligations.DrainCopiesTheOldest := by
  intro s m
  refine ⟨s.drainFrames m, ?_, fun j hj => ?_, rfl⟩
  · simp [State.drainFrames, State.slotsFrom, State.drainCount]
  · simp [State.drainFrames, State.slotsFrom]

/-! ### Pointers below N -/

/-- The pointers' half of `FsState.inRange` (10_state.md R24): it says nothing of the memory. -/
structure State.PointersInRange (s : State) : Prop where
  head_lt : s.fs.head < s.cfg.n
  tail_lt : s.fs.tail < s.cfg.n

/-- `s` with no byte stored: its counts are those of `s`, and its memory is canonical. -/
def State.blank (s : State) : State := { s with fs := { s.fs with buf := [] } }

namespace State.PointersInRange

variable {s : State}

theorem blank (h : s.PointersInRange) : s.blank.fs.inRange s.blank.cfg := ⟨h.head_lt, h.tail_lt, rfl, nofun⟩

theorem pushed (h : s.PointersInRange) (f : Frame) : (s.pushed f).PointersInRange :=
  ⟨Nat.mod_lt _ s.cfg.n_pos, h.tail_lt⟩

theorem drained (h : s.PointersInRange) (m : Nat) : (s.drained m).PointersInRange :=
  ⟨h.head_lt, Nat.mod_lt _ s.cfg.n_pos⟩

theorem tail_add_available_mod (h : s.PointersInRange) : (s.fs.tail + s.available) % s.cfg.n = s.fs.head :=
  State.tail_add_available_mod (s := s.blank) h.blank

theorem available_eq_of_mod (h : s.PointersInRange) {a : Nat} (ha : a < s.cfg.n)
    (hmod : (s.fs.tail + a) % s.cfg.n = s.fs.head) : s.available = a :=
  State.available_eq_of_mod (s := s.blank) h.blank ha hmod

theorem pushed_available (h : s.PointersInRange) (f : Frame) :
    (s.pushed f).available = (s.available + 1) % s.cfg.n :=
  State.pushed_available (s := s.blank) h.blank f

theorem drained_available (h : s.PointersInRange) (m : Nat) :
    (s.drained m).available = s.available - s.drainCount m :=
  State.drained_available (s := s.blank) h.blank m

theorem available_eq_zero_iff (h : s.PointersInRange) : s.available = 0 ↔ s.fs.head = s.fs.tail := by
  constructor
  · intro hav
    have hmod := h.tail_add_available_mod
    rw [hav, Nat.add_zero, Nat.mod_eq_of_lt h.tail_lt] at hmod
    exact hmod.symm
  · intro heq
    exact h.available_eq_of_mod s.cfg.n_pos (by rw [Nat.add_zero, Nat.mod_eq_of_lt h.tail_lt, heq])

/-- An unread slot is not the one at `head`, which is the slot the next PUSH writes. -/
theorem unread_slot_ne_head (h : s.PointersInRange) {j : Nat} (hj : j < s.available) :
    (s.fs.tail + j) % s.cfg.n ≠ s.fs.head := fun hmod =>
  hj.ne' (h.available_eq_of_mod (hj.trans s.available_lt) hmod)

end State.PointersInRange

/-- Settles O36. -/
theorem availableStaysBelowN : Obligations.AvailableStaysBelowN := fun s hhead htail =>
  ⟨s.available_lt, State.PointersInRange.available_eq_zero_iff ⟨hhead, htail⟩, s.available_lt.ne⟩

/-! ### The queue -/

theorem State.slotsFrom_succ (s : State) (i c : Nat) :
    s.slotsFrom i (c + 1) = s.slotsFrom i c ++ [s.readSlot ((i + c) % s.cfg.n)] := by
  simp [State.slotsFrom, List.range_succ]

theorem State.unread_of_available_eq_zero {s : State} (h : s.available = 0) : s.unread = [] :=
  List.eq_nil_of_length_eq_zero (s.length_unread.trans h)

namespace State.PointersInRange

variable {s : State}

/-- A PUSH writes over no unread frame. -/
theorem pushed_slotsFrom_tail (h : s.PointersInRange) (f : Frame) :
    (s.pushed f).slotsFrom s.fs.tail s.available = s.unread :=
  List.map_congr_left fun _ hj => s.pushed_readSlot_other f (h.unread_slot_ne_head (List.mem_range.1 hj))

/-- A PUSH that does not fill the last slot appends its frame to the unread ones. -/
theorem pushed_unread (h : s.PointersInRange) (f : Frame) (hroom : s.available + 1 ≠ s.cfg.n) :
    (s.pushed f).unread = s.unread ++ [f] := by
  have hlt : s.available + 1 < s.cfg.n := lt_of_le_of_ne s.available_lt hroom
  have hav : (s.pushed f).available = s.available + 1 := (h.pushed_available f).trans (Nat.mod_eq_of_lt hlt)
  calc (s.pushed f).unread
    _ = (s.pushed f).slotsFrom s.fs.tail (s.available + 1) := by rw [State.unread, hav, State.pushed_tail]
    _ = s.unread ++ [(s.pushed f).readSlot ((s.fs.tail + s.available) % s.cfg.n)] := by
        rw [State.slotsFrom_succ, h.pushed_slotsFrom_tail, State.pushed_cfg]
    _ = s.unread ++ [f] := by rw [h.tail_add_available_mod, State.pushed_readSlot_head]

theorem drained_unread (h : s.PointersInRange) (m : Nat) : (s.drained m).unread = s.unread.drop m := by
  have hcount : s.unread.drop m = s.unread.drop (s.drainCount m) := by
    rw [List.drop_eq_drop_min, State.length_unread, State.drainCount]
  rw [hcount, State.unread, h.drained_available, State.unread, State.slotsFrom_drop]
  rfl

/-- What a DRAIN copies and what it leaves are together what was unread. -/
theorem drainFrames_append_unread (h : s.PointersInRange) (m : Nat) :
    s.drainFrames m ++ (s.drained m).unread = s.unread := by
  rw [State.drainFrames_eq_take, h.drained_unread, List.take_append_drop]

end State.PointersInRange

/-! ### Runs of PUSH and DRAIN -/

/-- What a run from `s` keeps, with `ps` pushed and `ds` drained on the way to `t`. -/
structure QueueKept (s : State) (ps ds : List Frame) (t : State) : Prop where
  cfg : t.cfg = s.cfg
  pointers : t.PointersInRange
  fifo : ds ++ t.unread = s.unread ++ ps

theorem QueueKept.push {s t : State} {ps ds : List Frame} (h : QueueKept s ps ds t) (f : Frame)
    (hroom : t.available + 1 ≠ s.cfg.n) : QueueKept s (ps ++ [f]) ds (t.pushed f) where
  cfg := h.cfg
  pointers := h.pointers.pushed f
  fifo := by
    rw [h.pointers.pushed_unread f (h.cfg ▸ hroom), ← List.append_assoc, h.fifo, List.append_assoc]

theorem QueueKept.drain {s t : State} {ps ds : List Frame} (h : QueueKept s ps ds t) (m : Nat) :
    QueueKept s ps (ds ++ t.drainFrames m) (t.drained m) where
  cfg := h.cfg
  pointers := h.pointers.drained m
  fifo := by rw [List.append_assoc, h.pointers.drainFrames_append_unread m, h.fifo]

theorem QueueKept.answer {s t : State} {ps ds : List Frame} (h : QueueKept s ps ds t) (r : Reply) :
    QueueKept s ps ds (t.answer r) := ⟨h.cfg, ⟨h.pointers.head_lt, h.pointers.tail_lt⟩, h.fifo⟩

theorem StoreRun.queueKept {s t : State} {ps ds : List Frame} (hs : s.PointersInRange) (h : StoreRun s ps ds t) :
    QueueKept s ps ds t := by
  induction h with
  | nil => exact ⟨rfl, hs, by simp⟩
  | push f _ hroom hexec ih =>
    obtain ⟨-, rfl⟩ := push_next_iff.1 hexec
    exact ih.push f hroom
  | drain m frames _ hexec hreply ih =>
    cases hexec
    cases hreply
    exact (ih.drain m).answer _

/-- Settles O39, by induction on the run. -/
theorem firstInFirstOut : Obligations.FirstInFirstOut := fun _ _ _ _ hhead htail hrun =>
  (hrun.queueKept ⟨hhead, htail⟩).fifo

/-! ### PUSHes with no DRAIN -/

/-- The state after PUSH of each frame in turn. -/
def State.pushedAll (s : State) (fs : List Frame) : State := fs.foldl State.pushed s

@[simp] theorem State.pushedAll_nil (s : State) : s.pushedAll [] = s := rfl

@[simp] theorem State.pushedAll_cons (s : State) (f : Frame) (fs : List Frame) :
    s.pushedAll (f :: fs) = (s.pushed f).pushedAll fs := rfl

@[simp] theorem State.pushedAll_cfg (s : State) (fs : List Frame) : (s.pushedAll fs).cfg = s.cfg := by
  induction fs generalizing s with
  | nil => rfl
  | cons f fs ih => exact ih (s.pushed f)

@[simp] theorem State.pushedAll_tail (s : State) (fs : List Frame) : (s.pushedAll fs).fs.tail = s.fs.tail := by
  induction fs generalizing s with
  | nil => rfl
  | cons f fs ih => exact ih (s.pushed f)

theorem pushAll_eq_pushedAll {s : State} (h : s.PointersInRange) (fs : List Frame) :
    pushAll fs s = .next (s.pushedAll fs) := by
  induction fs generalizing s with
  | nil => rfl
  | cons f fs ih => rw [pushAll, exec_push_of_lt f h.head_lt]; exact ih (h.pushed f)

namespace State.PointersInRange

variable {s : State}

theorem pushedAll (h : s.PointersInRange) (fs : List Frame) : (s.pushedAll fs).PointersInRange := by
  induction fs generalizing s with
  | nil => exact h
  | cons f fs ih => exact ih (h.pushed f)

theorem pushedAll_available (h : s.PointersInRange) (fs : List Frame) :
    (s.pushedAll fs).available = (s.available + fs.length) % s.cfg.n := by
  induction fs generalizing s with
  | nil => exact (Nat.mod_eq_of_lt s.available_lt).symm
  | cons f fs ih =>
    calc (s.pushedAll (f :: fs)).available
      _ = ((s.available + 1) % s.cfg.n + fs.length) % s.cfg.n := by
          rw [State.pushedAll_cons, ih (h.pushed f), h.pushed_available, State.pushed_cfg]
      _ = (s.available + (f :: fs).length) % s.cfg.n := by
          rw [Nat.mod_add_mod, List.length_cons, Nat.add_right_comm, Nat.add_assoc]

/-- Frames that fit are all appended. -/
theorem pushedAll_unread (h : s.PointersInRange) {fs : List Frame} (hfit : s.available + fs.length < s.cfg.n) :
    (s.pushedAll fs).unread = s.unread ++ fs := by
  induction fs generalizing s with
  | nil => exact (List.append_nil _).symm
  | cons f fs ih =>
    rw [List.length_cons] at hfit
    have hav : (s.pushed f).available = s.available + 1 :=
      (h.pushed_available f).trans (Nat.mod_eq_of_lt (by omega))
    have hfit' : (s.pushed f).available + fs.length < (s.pushed f).cfg.n := by
      rw [hav, State.pushed_cfg]
      omega
    rw [State.pushedAll_cons, ih (h.pushed f) hfit', h.pushed_unread f (by omega), List.append_assoc,
      List.singleton_append]

/-- The PUSH that fills the last slot leaves the store empty (41_ring_buffer.md R88, R92). -/
theorem pushed_available_of_full (h : s.PointersInRange) (f : Frame) (hfull : s.available + 1 = s.cfg.n) :
    (s.pushed f).available = 0 := by
  rw [h.pushed_available, hfull, Nat.mod_self]

theorem pushed_head_of_full (h : s.PointersInRange) (f : Frame) (hfull : s.available + 1 = s.cfg.n) :
    (s.pushed f).fs.head = s.fs.tail :=
  (h.pushed f).available_eq_zero_iff.1 (h.pushed_available_of_full f hfull)

theorem overwritten_readSlot_tail (h : s.PointersInRange) (f g : Frame) (hfull : s.available + 1 = s.cfg.n) :
    ((s.pushed f).pushed g).readSlot s.fs.tail = g := by
  rw [← h.pushed_head_of_full f hfull, State.pushed_readSlot_head]

/-- For `N = 1` this fails: every count is 0 (log 17). -/
theorem overwritten_unread (h : s.PointersInRange) (f g : Frame) (hfull : s.available + 1 = s.cfg.n)
    (hn : 2 ≤ s.cfg.n) : ((s.pushed f).pushed g).unread = [g] := by
  have hav : (s.pushed f).available = 0 := h.pushed_available_of_full f hfull
  have hroom : (s.pushed f).available + 1 ≠ (s.pushed f).cfg.n := by
    rw [hav, State.pushed_cfg]
    omega
  rw [(h.pushed f).pushed_unread g hroom, State.unread_of_available_eq_zero hav, List.nil_append]

end State.PointersInRange

/-- Settles O38: a PUSH at `available = N - 1` brings `head` round to `tail`, so the next one writes the slot at `tail`
and is alone in the store. -/
theorem overwriteBehaviour : Obligations.OverwriteBehaviour := by
  intro s fs hhead htail
  have hs : s.PointersInRange := ⟨hhead, htail⟩
  have ht : (s.pushedAll fs).PointersInRange := hs.pushedAll fs
  have hcfg : (s.pushedAll fs).cfg = s.cfg := s.pushedAll_cfg fs
  refine ⟨s.pushedAll fs, pushAll_eq_pushedAll hs fs, s.pushedAll_tail fs, hcfg ▸ ht.head_lt,
    hs.pushedAll_available fs, fun f g hfull hn => ?_⟩
  rw [← hcfg] at hfull hn
  have hunread := ht.overwritten_unread f g hfull hn
  refine ⟨_, _, exec_push_of_lt f ht.head_lt, ht.pushed_available_of_full f hfull, ht.pushed_head_of_full f hfull,
    exec_push_of_lt g (ht.pushed f).head_lt, ?_, ht.overwritten_readSlot_tail f g hfull, hunread⟩
  rw [← State.length_unread, hunread, List.length_singleton]

/-- Settles O40: what is unread after the PUSHes is exactly the frames pushed, and the DRAIN takes them all. -/
theorem occupancyAccounting : Obligations.OccupancyAccounting := by
  intro s fs hhead heq hfit
  have hs : s.PointersInRange := ⟨hhead, heq ▸ hhead⟩
  have hempty : s.available = 0 := hs.available_eq_zero_iff.2 heq
  have hunread : (s.pushedAll fs).unread = fs := by
    rw [hs.pushedAll_unread (by omega), State.unread_of_available_eq_zero hempty, List.nil_append]
  refine ⟨_, _, pushAll_eq_pushedAll hs fs, rfl, ?_, ?_⟩
  · rw [State.answer_available, ← State.length_unread, (hs.pushedAll fs).drained_unread, hunread, List.drop_length,
      List.length_nil]
  · rw [State.answer_reply, State.drainFrames_eq_take, hunread, List.take_length]

/-! ### Contents no PUSH has written -/

/-- `s` with its unwritten slots reading as those of the store's `e`-th life (logs 3, 4). -/
def State.withEpoch (s : State) (e : Nat) : State := { s with fs := { s.fs with epoch := e } }

theorem State.withEpoch_readByte {s : State} {a : Nat} (h : (s.fs.buf.find? a).isSome = true) (e : Nat) :
    (s.withEpoch e).readByte a = s.readByte a := by
  obtain ⟨b, hb⟩ := Option.isSome_iff_exists.1 h
  simp [State.readByte, State.withEpoch, hb]

theorem State.withEpoch_readSlot {s : State} {i : Nat} (h : s.fs.written i) (e : Nat) :
    (s.withEpoch e).readSlot i = s.readSlot i := by
  obtain ⟨hlow, hhigh⟩ := h
  rw [State.readSlot, State.withEpoch_readByte hlow, State.withEpoch_readByte hhigh, State.readSlot]

/-- Every unread slot is written, so the free contents are in none of the unread frames. -/
theorem State.unreadWritten.withEpoch_unread {s : State} (h : s.unreadWritten) (e : Nat) :
    (s.withEpoch e).unread = s.unread :=
  List.map_congr_left fun j hj => State.withEpoch_readSlot (h j (List.mem_range.1 hj)) e

/-- Settles O44: what READ returns is taken from the unread frames. -/
theorem resetContentsAreNeverObservable : Obligations.ResetContentsAreNeverObservable := by
  intro s n e hinv
  obtain ⟨-, -, -, hwritten⟩ := s.inv_iff.1 hinv
  have hframes : (s.withEpoch e).drainFrames (s.readFrames n) = s.drainFrames (s.readFrames n) := by
    rw [State.drainFrames_eq_take, hwritten.withEpoch_unread, State.drainFrames_eq_take]
  exact ⟨_, _, rfl, rfl, congrArg (fun frames => Reply.bytes (serAll s.cfg.byteOrder frames)) hframes.symm, rfl⟩

end Sys2Proof.Machine
end

section
/-! PROOF. The consumer port (42_read_port.md): the bytes of a READ and the frames it takes, the READ of an empty store,
and WRITE. -/

namespace Sys2Proof.Machine

/-! ### The bytes of frames (20_memory.md R34) -/

@[simp] theorem length_ser (o : ByteOrder) (f : Frame) : (ser o f).length = 2 := by
  cases o <;> rfl

theorem length_serAll (o : ByteOrder) (fs : List Frame) : (serAll o fs).length = 2 * fs.length := by
  induction fs with
  | nil => rfl
  | cons f fs ih =>
    rw [serAll, List.length_append, length_ser, ih, List.length_cons]
    omega

/-- The byte pair of the first frame comes off in front of the others. -/
theorem serAll_cons_getElem?_add_two (o : ByteOrder) (f : Frame) (fs : List Frame) (i : Nat) :
    (serAll o (f :: fs))[i + 2]? = (serAll o fs)[i]? := by
  cases o <;> rfl

/-- Bytes `2j` and `2j + 1` are the byte pair of frame `j`. -/
theorem serAll_getElem?_pair (o : ByteOrder) {fs : List Frame} {j : Nat} (hj : j < fs.length) :
    [(serAll o fs)[2 * j]?, (serAll o fs)[2 * j + 1]?] = (ser o fs[j]).map some := by
  induction fs generalizing j with
  | nil => nomatch hj
  | cons f fs ih =>
    cases j with
    | zero => cases o <;> rfl
    | succ j =>
      have hodd : 2 * (j + 1) + 1 = 2 * j + 1 + 2 := by omega
      rw [hodd, Nat.mul_succ, serAll_cons_getElem?_add_two, serAll_cons_getElem?_add_two]
      exact ih (Nat.lt_of_succ_lt_succ hj)

/-! ### The frames a READ takes -/

/-- Both the rounded request and the clamp are even, so the division by 2 in `readFrames` is exact. -/
theorem State.two_mul_readFrames (s : State) (n : Nat) :
    2 * s.readFrames n = min (n - n % 2) (2 * s.available) := by
  rw [State.readFrames]
  omega

theorem State.readFrames_le_available (s : State) (n : Nat) : s.readFrames n ≤ s.available := by
  have heven := s.two_mul_readFrames n
  omega

/-- The DRAIN inside a READ is asked for no more frames than there are. -/
theorem State.drainCount_readFrames (s : State) (n : Nat) : s.drainCount (s.readFrames n) = s.readFrames n :=
  Nat.min_eq_left (s.readFrames_le_available n)

theorem State.length_drainFrames (s : State) (m : Nat) : (s.drainFrames m).length = s.drainCount m := by
  simp [State.drainFrames, State.slotsFrom]

theorem State.drainFrames_getElem (s : State) (m : Nat) {j : Nat} (hj : j < (s.drainFrames m).length) :
    (s.drainFrames m)[j] = s.readSlot ((s.fs.tail + j) % s.cfg.n) := by
  simp [State.drainFrames, State.slotsFrom]

/-- The bytes READ(n) answers with. -/
def State.readBytes (s : State) (n : Nat) : List Byte := serAll s.cfg.byteOrder (s.drainFrames (s.readFrames n))

theorem exec_read (s : State) (n : Nat) :
    exec (.read n) s = .next ((s.drained (s.readFrames n)).answer (.bytes (s.readBytes n))) := rfl

theorem State.length_readBytes (s : State) (n : Nat) : (s.readBytes n).length = 2 * s.readFrames n := by
  rw [State.readBytes, length_serAll, State.length_drainFrames, State.drainCount_readFrames]

theorem State.readBytes_getElem?_pair (s : State) (n : Nat) {j : Nat} (hj : 2 * j < (s.readBytes n).length) :
    [(s.readBytes n)[2 * j]?, (s.readBytes n)[2 * j + 1]?]
      = (ser s.cfg.byteOrder (s.readSlot ((s.fs.tail + j) % s.cfg.n))).map some := by
  have hframe : j < (s.drainFrames (s.readFrames n)).length := by
    rw [State.readBytes, length_serAll] at hj
    omega
  rw [State.readBytes, serAll_getElem?_pair _ hframe, State.drainFrames_getElem]

/-- Settles O41: a READ is the DRAIN of half its bytes, and the bytes are the pairs of the drained frames. -/
theorem readRoundsClampsAndDrains : Obligations.ReadRoundsClampsAndDrains := by
  intro s n
  have hlen : (s.readBytes n).length = 2 * s.readFrames n := s.length_readBytes n
  refine ⟨s.readBytes n, hlen.trans (s.two_mul_readFrames n), fun j hj => s.readBytes_getElem?_pair n hj, ?_⟩
  have hcount : (s.readBytes n).length / 2 = s.drainCount (s.readFrames n) := by
    rw [hlen, State.drainCount_readFrames, Nat.mul_div_cancel_left _ Nat.two_pos]
  rw [hcount]
  exact exec_read s n

/-! ### The empty store -/

theorem State.drained_zero {s : State} (h : s.fs.tail < s.cfg.n) : s.drained 0 = s := by
  have htail : (s.fs.tail + s.drainCount 0) % s.cfg.n = s.fs.tail := by
    rw [State.drainCount, Nat.zero_min, Nat.add_zero, Nat.mod_eq_of_lt h]
  rw [State.drained, htail]

/-- Settles O42: an empty store clamps the request to 0 frames, and a DRAIN of 0 moves no pointer. -/
theorem readOfAnEmptyStoreReturnsNothing : Obligations.ReadOfAnEmptyStoreReturnsNothing := by
  intro s n htail hempty
  have hframes : s.readFrames n = 0 := Nat.eq_zero_of_le_zero (hempty ▸ s.readFrames_le_available n)
  have hbytes : s.readBytes n = [] := List.eq_nil_of_length_eq_zero (by rw [State.length_readBytes, hframes])
  rw [exec_read, hframes, hbytes, State.drained_zero htail]
  rfl

/-! ### WRITE -/

/-- Settles O45: R99's answer is the one branch of `execWrite`. -/
theorem writeIsANoOp : Obligations.WriteIsANoOp := fun _ _ => rfl

end Sys2Proof.Machine
end

section
/-! PROOF. The exceptions (60_exceptions.md): the cause of each event (R100 to R102), and which condition a STEP takes
where several hold at once (R111). -/

namespace Sys2Proof.Machine

/-! ### The cause of each event -/

section Events
variable {inp : StepIn} {s t : State}

/-- Every rule that emits NONE emits the empty record. -/
theorem RuleOutcome.ev_of_none (h : RuleOutcome inp s t) (hev : t.ev.kind = .none) : t.ev = Event.nothing := by
  cases h with
  | startTimeout | pulseAborted | readyTimeout | releaseTimeout | completed => cases hev
  | _ => rfl

/-- Where a rule of START_TIMEOUT ran: in the start wait past the timeout, or at the end of an aborting pulse. -/
theorem RuleOutcome.cause_of_startTimeout (h : RuleOutcome inp s t) (hev : t.ev.kind = .startTimeout) :
    (s.rx.st = Code.waitStart ∧ inp.clk = true ∧ s.timedOut inp.now = true) ∨
      (s.rx.st = Code.eoiAck ∧ s.rx.abort = true ∧ s.pulseOver inp.now = true) := by
  cases h with
  | startTimeout hst hc _ ht => exact .inl ⟨hst, hc, ht⟩
  | pulseAborted hst hp ha => exact .inr ⟨hst, ha, hp⟩
  | _ => cases hev

/-- Where a rule of BIT_TIMEOUT ran: past the timeout, in one of the two waits of a bit period, which the phase tells
apart. -/
theorem RuleOutcome.cause_of_bitTimeout (h : RuleOutcome inp s t) (hev : t.ev.kind = .bitTimeout) :
    s.timedOut inp.now = true ∧
      ((s.rx.st = Code.bitReady ∧ inp.clk = false ∧ t.ev.phase = 0) ∨
        (s.rx.st = Code.bitRelease ∧ inp.clk = true ∧ s.rx.idx < 7 ∧ t.ev.phase = 1)) := by
  cases h with
  | readyTimeout hst hc ht => exact ⟨ht, .inl ⟨hst, hc, rfl⟩⟩
  | releaseTimeout hst hc ht hi => exact ⟨ht, .inr ⟨hst, hc, hi, rfl⟩⟩
  | _ => cases hev

/-- The record of a START_TIMEOUT (30_encoding.md R63). -/
theorem RuleOutcome.ev_of_startTimeout (h : RuleOutcome inp s t) (hev : t.ev.kind = .startTimeout) :
    t.ev = { kind := .startTimeout, index := 0, phase := 0, frame := 0 } := by
  cases h with
  | startTimeout | pulseAborted => rfl
  | _ => cases hev

/-- A BIT_TIMEOUT names the bit of its wait and carries no frame (30_encoding.md R63). -/
theorem RuleOutcome.index_frame_of_bitTimeout (h : RuleOutcome inp s t) (hev : t.ev.kind = .bitTimeout) :
    t.ev.index = s.rx.idx ∧ t.ev.frame = 0 := by
  cases h with
  | readyTimeout | releaseTimeout => exact ⟨rfl, rfl⟩
  | _ => cases hev

end Events

/-- Settles O29, event by event: the rules that emit it, and the record they emit. -/
theorem eventsComeFromTheirCauses : Obligations.EventsComeFromTheirCauses := by
  intro s t inp h
  obtain ⟨-, hrule⟩ := execStep_next_iff_outcome.1 h
  refine ⟨hrule.ev_of_none, fun hev => ⟨?_, ?_⟩, fun hev => ?_, fun hev => ?_⟩
  · exact (hrule.cause_of_startTimeout hev).imp
      (fun ⟨hst, hc, ht⟩ => ⟨hst, hc, State.timedOut_eq_true.1 ht⟩)
      (fun ⟨hst, ha, hp⟩ => ⟨hst, ha, State.pulseOver_eq_true.1 hp⟩)
  · rw [hrule.ev_of_startTimeout hev]
    exact ⟨rfl, rfl, rfl⟩
  · obtain ⟨ht, hwait⟩ := hrule.cause_of_bitTimeout hev
    exact ⟨State.timedOut_eq_true.1 ht, hwait, hrule.index_frame_of_bitTimeout hev⟩
  · obtain ⟨hst, hi, -⟩ := hrule.cause_of_frame hev
    obtain ⟨rfl, -⟩ := hrule.of_frame hev
    exact ⟨hst, hi, rfl, rfl⟩

/-! ### Several conditions at once -/

section Priority
variable {inp : StepIn} {s t u : State}

/-- The conditions of a rule leave one outcome, so no other condition that holds matters. -/
theorem RuleOutcome.unique (h : RuleOutcome inp s t) (h' : RuleOutcome inp s u) : t = u :=
  Host.Outcome.next.inj (h.runRule_eq.symm.trans h'.runRule_eq)

/-- The STEP at the end of a pulse that began past the timeout takes that timeout. -/
theorem RuleOutcome.at_abortingPulseEnd (h : RuleOutcome inp s t) (hst : s.rx.st = Code.eoiAck)
    (ha : s.rx.abort = true) (hp : s.pulseOver inp.now = true) :
    t.ev.kind = .startTimeout ∧ t.rx.st = Code.idle := by
  obtain rfl := h.unique (.pulseAborted hst hp ha)
  exact ⟨rfl, rfl⟩

/-- In bit 7's release wait a rule past the timeout completes the byte, at either CLOCK level. -/
theorem RuleOutcome.frame_of_timedOut_of_seven (h : RuleOutcome inp s t) (hst : s.rx.st = Code.bitRelease)
    (hi : s.rx.idx = 7) (ht : s.timedOut inp.now = true) : t.ev.kind = .frame := by
  have hcomplete : complete inp.atn s = .next t := (runRule_eq_complete hst hi (.inr ht)).symm.trans h.runRule_eq
  obtain ⟨-, rfl⟩ := complete_next_iff.1 hcomplete
  rfl

end Priority

/-- O27 for the trigger a STEP was given: outside IDLE the other one does the same. -/
theorem execStep_flip_trig {inp : StepIn} {s : State} (hst : s.rx.st ≠ Code.idle) :
    exec (.step { inp with trig := !inp.trig }) s = exec (.step inp) s := by
  have hsame := triggerOutsideIdleIsIgnored s inp hst
  obtain ⟨trig, clk, data, atn, now⟩ := inp
  cases trig with
  | false => exact hsame
  | true => exact hsame.symm

/-- Settles O30: where a rule's conditions hold it is the one that ran, whatever else held; the EOI acknowledgment
records a timeout already past, and its pulse's end takes it. -/
theorem simultaneousConditionsResolve : Obligations.SimultaneousConditionsResolve := by
  intro s t inp h
  obtain ⟨-, hrule⟩ := execStep_next_iff_outcome.1 h
  refine ⟨fun hst hc => ?waitStart, fun hst hc => ?bitReady, fun hst hc hev => ?bitRelease,
    fun hst hc heoi hdue => ?acknowledgment, fun hst hi ht => ?bitSeven, fun hst => (execStep_flip_trig hst).trans h⟩
  case waitStart =>
    obtain rfl := hrule.unique (.went hst hc)
    exact ⟨rfl, rfl⟩
  case bitReady =>
    obtain rfl := hrule.unique (.ready hst hc)
    exact ⟨rfl, rfl⟩
  case bitRelease =>
    obtain ⟨-, ⟨hst', -⟩ | ⟨-, hc', -⟩⟩ := hrule.cause_of_bitTimeout hev
    · exact absurd (hst.symm.trans hst') (by decide)
    · exact absurd (hc.symm.trans hc') (by decide)
  case acknowledgment =>
    obtain rfl := hrule.unique (.pulseBegan hst hc (State.eoiDue_eq_true.2 ⟨heoi, hdue⟩))
    refine ⟨rfl, rfl, fun ht => ?_⟩
    have habort : s.timedOut inp.now = true := State.timedOut_eq_true.2 ht
    refine ⟨habort, fun v u inp' hrx _ hv hp => ?_⟩
    obtain ⟨-, hend⟩ := execStep_next_iff_outcome.1 hv
    exact hend.at_abortingPulseEnd (congrArg RxState.st hrx) ((congrArg RxState.abort hrx).trans habort)
      (State.pulseOver_eq_true.2 hp)
  case bitSeven => exact hrule.frame_of_timedOut_of_seven hst hi (State.timedOut_eq_true.2 ht)

end Sys2Proof.Machine
end

section
/-! PROOF. RESET and the state it leaves (70_reset_and_hazards.md R120 to R122): its values in every register, and the
machine's invariant in the state a run starts from. -/

namespace Sys2Proof.Machine

/-- The state after RESET: the receiver, the frame store and the event port start a new life (70_reset_and_hazards.md
R120). -/
def State.afterReset (s : State) : State :=
  { s with rx := RxState.reset, fs := FsState.reset (s.fs.epoch + 1), ev := Event.nothing }

theorem exec_reset (s : State) : exec .reset s = .next s.afterReset := rfl

theorem State.afterReset_sameOutside (s : State) : SameOutside s s.afterReset := ⟨rfl, rfl, rfl, rfl, rfl⟩

/-- RESET makes the pointers equal, so the store is empty (41_ring_buffer.md R89). -/
theorem State.afterReset_available (s : State) : s.afterReset.available = 0 :=
  have hpointers : s.afterReset.PointersInRange := ⟨s.cfg.n_pos, s.cfg.n_pos⟩
  hpointers.available_eq_zero_iff.2 rfl

theorem State.afterReset_unread (s : State) : s.afterReset.unread = [] :=
  State.unread_of_available_eq_zero s.afterReset_available

/-- Event NONE is the record 0 (30_encoding.md R62, R63). -/
theorem Event.nothing_record : Event.nothing.record = 0 := rfl

/-- Settles O46: RESET answers `afterReset`, which holds R121's constants and an empty store. -/
theorem resetLeavesTheResetState : Obligations.ResetLeavesTheResetState := fun s =>
  ⟨s.afterReset, exec_reset s, rfl, rfl, rfl, rfl, rfl, rfl, rfl, rfl, rfl, rfl, rfl, Event.nothing_record,
    s.afterReset_available, s.afterReset_unread, s.afterReset_sameOutside⟩

/-- Settles O47: the initial state is built from the constants that RESET writes. -/
theorem theMachineStartsReset : Obligations.TheMachineStartsReset :=
  ⟨rfl, rfl, rfl, rfl, rfl, rfl, rfl, rfl, rfl, rfl, rfl, rfl⟩

/-- Settles O52: at reset the receiver is idle with legal registers, and the store is empty. -/
theorem invariantAtReset : Obligations.InvariantAtReset :=
  State.reset.inv_iff.2 ⟨RxState.reset_sound _, State.storeSound_of_reset rfl⟩

end Sys2Proof.Machine
end
